-- ==== Sys2Proof/Word.lean ====
section
/-! DEFINITION. The word types of the CG2: what the manual numbers, shifts, masks or sends as bytes. -/

namespace Sys2Proof

/-- One byte of a frame. -/
abbrev Byte := BitVec 8

/-- A 16-bit field: a type, a sequence, a session number, header flags. -/
abbrev Word16 := BitVec 16

/-- A 48-bit station address (R83). -/
abbrev Mac := BitVec 48

/-- Part time, a 48-bit count of ticks of 8 ns that wraps (R92). -/
abbrev Time := BitVec 48

/-- A 32-bit counter (R173), a hit count (R109) or the cycle number (R38). -/
abbrev Count := BitVec 32

/-- A gate set: bit i stands for queue i for i from 0 to 7, bit 8 for M (R182). -/
abbrev GateSet := BitVec 9

/-- A priority set: bits 0 to 7 stand for the tag priorities, bit 8 for untagged (section 12.3). -/
abbrev PrioritySet := BitVec 9

/-- The notice enable set: bit k - 1 stands for the notice kind k (section 12.4). -/
abbrev KindSet := BitVec 7

/-- A queue name of one port: 0 to 7 for the classes, 8 for M (R119, section 12.1). -/
abbrev QueueName := Fin 9

/-- The queue that carries responses and notices (R64). -/
abbrev queueM : QueueName := 8

/-- A frame record handle (R116). -/
abbrev Handle := Fin 256

/-- A cell number of the pool (R116). -/
abbrev CellNo := Fin 512

/-- An entry index of a program bank (R26). -/
abbrev EntryIndex := Fin 32

/-- An entry index of the Match Table (R101). -/
abbrev MatchIndex := Fin 64

end Sys2Proof
end

