-- ==== Sys2Proof/Config.lean ====
section
/-! DEFINITION. What one revision of the CG2 fixes (R144 lists the capacities), and the one free value the manual leaves open: the order of
events that fall at one moment. -/

namespace Sys2Proof

/-- The free value behind the order in which the time base and the agent hand out events that fall due at one part time. Section 5 of the scope file
and R93 say only that "the owning rule gives the outcome for either order"; no rule says which order is taken, so nothing constrains it.
It is applied to the counter `tieCount` of the state (log entry 3). -/
opaque Config.tieChoice : Nat → Nat

/-- Cells in the pool (R144). -/
abbrev Config.cellCount : Nat := 512

/-- Bytes in one cell (R144). -/
abbrev Config.cellSize : Nat := 128

/-- Frame records (R144). -/
abbrev Config.recordCount : Nat := 256

/-- Match Table entries (R144). -/
abbrev Config.matchEntryCount : Nat := 64

/-- Entries in one program bank (R144). -/
abbrev Config.bankEntryCount : Nat := 32

/-- Spans the history holds at most (R2, R144). -/
abbrev Config.historyLength : Nat := 16

/-- Records the notice queue holds at most (R177, R144). -/
abbrev Config.noticeCapacity : Nat := 8

/-- Slots of the request FIFO (R100, R144). -/
abbrev Config.fifoCapacity : Nat := 4

/-- Bytes of the shortest frame (R85). -/
abbrev Config.frameMin : Nat := 64

/-- Bytes of the longest frame, and of the receive staging buffer (R81, R85). -/
abbrev Config.frameMax : Nat := 1536

/-- Ticks between two service moments of the agent (R132). -/
abbrev Config.servicePeriod : Nat := 1024

/-- Ticks of a SYNC_OUT pulse (R60). -/
abbrev Config.syncPulseTicks : Nat := 125

/-- Ticks of one millisecond (R151). -/
abbrev Config.ticksPerMs : Nat := 125000

end Sys2Proof
end

