-- ==== Sys2Proof/Syntax.lean ====
section
/-! DEFINITION. The commands of the CG2: one constructor for each row of spec/opcode_table.json, with the operands that come from outside
the part with it. A request row has no operand: its operands stand in the frame at the front of the request FIFO (R132). -/

namespace Sys2Proof

/-- The two line ports (R81). -/
inductive Port
  | a
  | b
  deriving DecidableEq, Repr

/-- The port a frame received on the given port is forwarded to (R107). -/
def Port.opposite : Port → Port
  | .a => .b
  | .b => .a

/-- A line speed, set by a strap (R82). -/
inductive Speed
  | mbps100
  | mbps1000
  deriving DecidableEq, Repr

/-- A link state or a PHY link indication (R88). -/
inductive Link
  | down
  | up
  deriving DecidableEq, Repr

/-- The levels of the strap pins: SPEED_A, SPEED_B and ADDR3..ADDR0 (R82, R94). -/
structure Straps where
  speedA : Speed
  speedB : Speed
  address : BitVec 4
  deriving DecidableEq, Repr

/-- The commands: pin and line events, expiries of timed waits, and request-taken events. -/
inductive Instr
  /-- RESET_N is driven low (R95). -/
  | resetNAssert
  /-- RESET_N is released with the strap pins at these levels (R95). -/
  | resetNRelease (straps : Straps)
  /-- The PHY link indication of the port changes to UP (R90). -/
  | linkUp (port : Port)
  /-- The PHY link indication of the port changes to DOWN (R89). -/
  | linkDown (port : Port)
  /-- The reception in progress on the port ends: the bytes of the whole frame, check sequence included, and whether the PHY signalled a
  receive error within it (R84, R85). -/
  | receptionCompletion (port : Port) (frame : List Byte) (receiveError : Bool)
  /-- The acquire timeout expires (R9). -/
  | acquireTimeout
  /-- The window close expires (R12). -/
  | windowClose
  /-- The entry deadline expires (R49). -/
  | entryDeadline
  /-- The settle due expires (R52). -/
  | settleDue
  /-- The SYNC_OUT pulse-end wait expires (R60). -/
  | syncOutPulseEnd
  /-- The completion wait of the port's in-flight frame expires (R74). -/
  | transmissionCompletion (port : Port)
  /-- The lease expiry wait expires (R156). -/
  | leaseExpiry
  /-- The oldest request is taken and is short (R133). -/
  | shortFrameDropped
  /-- The oldest request is taken and its code is unknown (R133). -/
  | badCode
  /-- An IDENTIFY request is taken (R144). -/
  | identify
  /-- A READ_CONFIG request is taken (R141). -/
  | readConfig
  /-- A WRITE_CONFIG request that no other row names is taken (R142). -/
  | writeConfig
  /-- A WRITE_CONFIG of the tracker enable to on is taken (R5). -/
  | trackerEnableOn
  /-- A WRITE_CONFIG of the tracker enable to off is taken (R6). -/
  | trackerEnableOff
  /-- A WRITE_CONFIG of another tracker item is taken (R18). -/
  | writeTrackerItem
  /-- A WRITE_CONFIG of the sequencer enable to on is taken (R42). -/
  | sequencerEnableOn
  /-- A WRITE_CONFIG of the sequencer enable to off is taken (R42). -/
  | sequencerEnableOff
  /-- A WRITE_CONFIG of a free gate set is taken (R43). -/
  | writeFreeGateSet
  /-- A WRITE_CONFIG of the SYNC_OUT enable is taken (R60). -/
  | writeSyncOutEnable
  /-- A WRITE_CONFIG of the station address is taken (R143). -/
  | writeStationAddress
  /-- A WRITE_CONFIG of the management type is taken (R143). -/
  | writeManagementType
  /-- A WRITE_CONFIG of the default action is taken (R104). -/
  | writeDefaultAction
  /-- A WRITE_CONFIG of a quota is taken (R120). -/
  | writeQuota
  /-- A WRITE_CONFIG of the notice enable set is taken (R178). -/
  | writeNoticeEnableSet
  /-- A READ_STATUS request is taken (R145). -/
  | readStatus
  /-- A RESET request whose kind is not FULL is taken (R146). -/
  | resetTraffic
  /-- A RESET request of kind FULL is taken (R147). -/
  | resetFull
  /-- A READ_MATCH request is taken (R112). -/
  | readMatch
  /-- A WRITE_MATCH request is taken (R110). -/
  | writeMatch
  /-- A READ_PROGRAM request is taken (R36). -/
  | readProgram
  /-- A WRITE_PROGRAM request is taken (R32). -/
  | writeProgram
  /-- A WRITE_PROGRAM_HEADER request is taken (R34). -/
  | writeProgramHeader
  /-- A COMMIT request is taken (R162). -/
  | commit
  /-- A CANCEL_COMMIT request is taken (R169). -/
  | cancelCommit
  /-- A HALT request is taken (R56). -/
  | halt
  /-- A RESUME request is taken (R57). -/
  | resume
  /-- A READ_COUNTERS request without CLEAR is taken (R174). -/
  | readCounters
  /-- A READ_COUNTERS request with CLEAR is taken (R175). -/
  | readCountersClear
  /-- An OPEN_SESSION request is taken (R152). -/
  | openSession
  /-- A RENEW request is taken (R154). -/
  | renew
  /-- A CLOSE_SESSION request is taken (R155). -/
  | closeSession
  /-- The PHY presents the start delimiter of a frame on the port (R84). -/
  | receptionStart (port : Port)
  deriving DecidableEq, Repr

end Sys2Proof
end

