-- ==== Sys2Proof/Decode.lean ====
section
/-! DEFINITION. The decoder over the rows of spec/opcode_table.json that give bits: none of the 47 rows does ("fields": [], no "fixed"), so
no word spells a command (log entry 20). The bytes of a management request are read in Machine/Operands.lean. -/

namespace Sys2Proof

/-- The command that a word spells by the table's bits: none, since no row has bits (log entry 20). -/
def decodeTableWord (_nbits _w : Nat) : Option Instr := none

end Sys2Proof
end

