-- ==== Sys2Proof/Machine/State.lean ====
section
/-! DEFINITION. The state of the CG2 as plain data, block by block, and the state after reset. -/

namespace Sys2Proof.Machine

/-- Two like things, one for each port. -/
structure Pair (α : Type) where
  a : α
  b : α
  deriving DecidableEq, Repr

/-- The port's one of the two. -/
def Pair.get {α : Type} (x : Pair α) : Port → α
  | .a => x.a
  | .b => x.b

/-- Replace the port's one of the two. -/
def Pair.set {α : Type} (x : Pair α) (p : Port) (v : α) : Pair α :=
  match p with
  | .a => ⟨v, x.b⟩
  | .b => ⟨x.a, v⟩

/-! ### Line ports and time base (chapter 5) -/

/-- The receiver with its staging buffer (R81, R84). -/
structure Receiver where
  receiving : Bool
  staging : List Byte
  received : Nat
  damaged : Bool
  deriving DecidableEq, Repr

/-- An idle receiver with an empty staging buffer (R81). -/
def Receiver.idle : Receiver := ⟨false, [], 0, false⟩

/-- A line port (R81). Its speed is the latched strap (R82); its transmitter is listed with the scheduler (R63). -/
structure LinePort where
  link : Link
  receiver : Receiver
  deriving DecidableEq, Repr

/-- The pins that are not straps (section 5.8): the level of RESET_N (true is high), the PHY link indications, LOCK and SYNC_OUT. -/
structure Pins where
  resetN : Bool
  phy : Pair Link
  lock : Bool
  syncOut : Bool
  deriving DecidableEq, Repr

/-! ### Gates, schedulers and transmitters (chapters 3 and 4) -/

/-- The presentation of a port: a gate set and a guard limit (R39). -/
structure Presentation where
  gates : GateSet
  limit : Option Time
  deriving DecidableEq, Repr

/-- All nine queue names. -/
def allGates : GateSet := BitVec.allOnes 9

/-- All nine queues, no guard limit (R38, R63). -/
def Presentation.powerOn : Presentation := ⟨allGates, none⟩

/-- One egress queue: its records, oldest first, and its two counts (R116, R119). -/
structure Queue where
  records : List Handle
  frames : Nat
  cells : Nat
  deriving DecidableEq, Repr

/-- An empty queue. -/
def Queue.empty : Queue := ⟨[], 0, 0⟩

/-- A transmission in progress (R63, R72). The completion wait is due at `due`. -/
structure InFlight where
  record : Handle
  start : Time
  due : Time
  overrunCounted : Bool
  deriving DecidableEq, Repr

/-- The scheduler and transmitter of one port (R63). -/
structure Egress where
  presentation : Presentation
  queues : Vector Queue 9
  inFlight : Option InFlight
  deriving DecidableEq, Repr

/-- A scheduler after reset (R63). -/
def Egress.powerOn : Egress := ⟨Presentation.powerOn, Vector.replicate 9 Queue.empty, none⟩

/-! ### Buffer pool (chapter 7) -/

/-- A frame record; the handle is its index (R118). -/
structure FrameRecord where
  length : Nat
  port : Port
  queue : QueueName
  cells : List CellNo
  guardHeld : Bool
  deriving DecidableEq, Repr

/-- A free record; "its fields have no effect" (R118, log entry 11). -/
def FrameRecord.blank : FrameRecord := ⟨0, .a, 0, [], false⟩

/-- The bytes of the cells: (address, byte), cell c at address 128 c, addresses strictly rising, no byte equal to what an unlisted address
reads as (log entry 10). -/
abbrev Memory := List Host.Cell

/-- The Buffer Manager's pool (R116). The per-queue counts stand with their queues. -/
structure Pool where
  freeRecords : List Handle
  freeCells : List CellNo
  records : Vector FrameRecord 256
  memory : Memory
  deriving DecidableEq, Repr

/-- The pool after reset (R116). -/
def Pool.powerOn : Pool :=
  ⟨List.finRange 256, List.finRange 512, Vector.replicate 256 FrameRecord.blank, []⟩

/-! ### Classifier (chapter 6) -/

/-- The ingress port of a Match Table entry (R101), in the order of its encoding. -/
inductive Ingress
  | portA
  | portB
  | either
  deriving DecidableEq, Repr

/-- What becomes of a frame (R101). -/
inductive Disposition
  | forward
  | discard
  deriving DecidableEq, Repr

/-- The governing class (R106). -/
inductive ClassChoice
  | fixed (class_ : Fin 8)
  | fromPriority
  deriving DecidableEq, Repr

/-- The mark a frame carries (R108). -/
inductive MarkKind
  | noMark
  | cycle
  | step
  deriving DecidableEq, Repr

/-- Disposition, class and mark kind of an entry or of the default action (R101, R104). -/
structure Action where
  disposition : Disposition
  classChoice : ClassChoice
  mark : MarkKind
  deriving DecidableEq, Repr

/-- A Match Table entry record (R101). -/
structure MatchEntry where
  valid : Bool
  ingress : Ingress
  value : Mac
  mask : Mac
  etherType : Option Word16
  priorities : PrioritySet
  vlan : Option (BitVec 12)
  action : Action
  deriving DecidableEq, Repr

/-- A Match Table entry after reset (R98). -/
def MatchEntry.powerOn : MatchEntry := ⟨false, .either, 0, 0, none, 0, none, ⟨.discard, .fixed 0, .noMark⟩⟩

/-- The Classifier (R98). -/
structure Classifier where
  entries : Vector MatchEntry 64
  hits : Vector Count 64
  deriving DecidableEq, Repr

/-! ### Cadence tracker (chapter 1) -/

/-- Tracker states, in the order R1 lists them. -/
inductive TrackerState
  | off
  | seeking
  | acquiring
  | locked
  | holdover
  deriving DecidableEq, Repr

/-- The tracker's one timed wait (R1). -/
inductive TrackerWait
  | acquireTimeout (due : Time)
  | windowClose (due : Time)
  deriving DecidableEq, Repr

/-- The Cadence Tracker (R1). -/
structure Tracker where
  state : TrackerState
  history : List Nat
  captures : Nat
  ref : Option Nat
  boundary : Time
  missing : Nat
  synthesised : Bool
  wait : Option TrackerWait
  deriving DecidableEq, Repr

/-- The tracker after reset (R1). -/
def Tracker.powerOn : Tracker := ⟨.off, [], 0, none, 0, 0, false, none⟩

/-! ### Phase sequencer and program store (chapters 2 and 3) -/

/-- Sequencer states, in the order R38 lists them. -/
inductive SequencerState
  | stopped
  | free
  | running
  | halted
  | rejoining
  deriving DecidableEq, Repr

/-- A pending transition (R38). -/
structure Transition where
  target : EntryIndex
  due : Time
  deriving DecidableEq, Repr

/-- The Phase Sequencer (R38). -/
structure Sequencer where
  state : SequencerState
  current : EntryIndex
  origin : Time
  span : Nat
  endTime : Time
  stepSeen : Bool
  pending : Option Transition
  cycle : Count
  deadline : Option Time
  settle : Option Time
  presentation : Pair Presentation
  pulseEnd : Option Time
  deriving DecidableEq, Repr

/-- The sequencer after reset (R38). -/
def Sequencer.powerOn : Sequencer :=
  ⟨.stopped, 0, 0, 0, 0, false, none, 0, none, none, ⟨Presentation.powerOn, Presentation.powerOn⟩, none⟩

/-- How an entry ends: its kind with the fields that kind has (R27). An entry of an illegal shape cannot be written down. -/
inductive EntryEnd
  | timed (endOffset : Nat) (next : EntryIndex)
  | step (endOffset : Nat) (settle : BitVec 8) (next : EntryIndex)
  | tail
  deriving DecidableEq, Repr

/-- A program entry record (R26). -/
structure Entry where
  gates : Pair GateSet
  guarded : Bool
  ending : EntryEnd
  deriving DecidableEq, Repr

/-- The entry every bank is loaded with at reset (R23). -/
def Entry.powerOn : Entry := ⟨⟨allGates, allGates⟩, false, .tail⟩

/-- A bank header: cycle period and four start slots, stored as written (R25). -/
structure Header where
  period : Byte
  slots : Vector Byte 4
  deriving DecidableEq, Repr

/-- One program bank (R25, R26). -/
structure Bank where
  header : Header
  entries : Vector Entry 32
  deriving DecidableEq, Repr

/-- A bank after reset (R23). -/
def Bank.powerOn : Bank := ⟨⟨1, Vector.replicate 4 0⟩, Vector.replicate 32 Entry.powerOn⟩

/-- The number of a bank (R24). -/
inductive BankId
  | bank0
  | bank1
  deriving DecidableEq, Repr

/-- The Program Store (R23). -/
structure ProgramStore where
  bank0 : Bank
  bank1 : Bank
  active : BankId
  commitPending : Bool
  deriving DecidableEq, Repr

/-- The Program Store after reset (R23). -/
def ProgramStore.powerOn : ProgramStore := ⟨Bank.powerOn, Bank.powerOn, .bank0, false⟩

/-! ### Management agent and sessions (chapters 8 and 9) -/

/-- The status codes of responses, in the order of their encoding (R134, section 12.1). -/
inductive Status
  | ok
  | badVersion
  | badCode
  | badArgument
  | notOwner
  | sessionHeld
  | sequenceGap
  | wrongState
  | stagedLocked
  | commitPending
  | noCommit
  | programInvalid
  deriving DecidableEq, Repr

/-- A request slot of the FIFO (R100). -/
structure Slot where
  bytes : List Byte
  length : Nat
  source : Mac
  port : Port
  arrival : Time
  deriving DecidableEq, Repr

/-- The session record (R150). `isOpen` is the session state: false is NONE, true is OPEN. -/
structure Session where
  isOpen : Bool
  ownerAddress : Mac
  ownerPort : Port
  number : Word16
  leaseMs : Nat
  leaseExpiry : Time
  lastSequence : Word16
  leaseWait : Option Time
  deriving DecidableEq, Repr

/-- The session record after reset (R150). -/
def Session.powerOn : Session := ⟨false, 0, .a, 0, 30000, 0, 0, none⟩

/-- The replay record (R131, R136). -/
structure Replay where
  sequence : Word16
  code : Byte
  status : Status
  deriving DecidableEq, Repr

/-- The Management Agent but for its config items (R131). `serviced` says that the agent is done with the service moment of the present
part time (R132, log entry 7). -/
structure Agent where
  fifo : List Slot
  serviced : Bool
  session : Session
  replay : Option Replay
  deriving DecidableEq, Repr

/-- The agent after reset (R131, R148). -/
def Agent.powerOn : Agent := ⟨[], true, Session.powerOn, none⟩

/-- The 33 config items (R140). -/
structure ConfigItems where
  stationAddress : Mac
  managementType : Word16
  trackerEnable : Bool
  cadencePort : Port
  depth : Nat
  window : Nat
  holdover : Nat
  spanMin : Nat
  spanMax : Nat
  sequencerEnable : Bool
  freeGates : Pair GateSet
  syncOutEnable : Bool
  defaultAction : Action
  quotas : Pair (Vector Nat 9)
  noticeEnable : KindSet
  deriving DecidableEq, Repr

/-- The power-on quotas of one port: 48 for each class queue, 16 for M (R120). -/
def powerOnQuotas : Vector Nat 9 := #v[48, 48, 48, 48, 48, 48, 48, 48, 16]

/-- The power-on station address 02-4D-46-00-00-0s (R94). -/
def strappedAddress (s : BitVec 4) : Mac := 0x024D46000000#48 ||| s.setWidth 48

/-- The config items at power-on (R140). -/
def ConfigItems.powerOn (straps : Straps) : ConfigItems where
  stationAddress := strappedAddress straps.address
  managementType := 0x9C41
  trackerEnable := false
  cadencePort := .a
  depth := 4
  window := 16
  holdover := 3
  spanMin := 12500
  spanMax := 12500000
  sequencerEnable := false
  freeGates := ⟨allGates, allGates⟩
  syncOutEnable := true
  defaultAction := ⟨.forward, .fixed 0, .noMark⟩
  quotas := ⟨powerOnQuotas, powerOnQuotas⟩
  noticeEnable := BitVec.allOnes 7

/-! ### Counters and notices (chapter 11) -/

/-- The counters of a port group, in result order (R173). -/
structure PortCounters where
  goodReceived : Count := 0
  runts : Count := 0
  giants : Count := 0
  checkErrors : Count := 0
  transmitted : Count := 0
  linkDiscards : Count := 0
  guardHolds : Count := 0
  overruns : Count := 0
  deriving DecidableEq, Repr

/-- The counters of a queue group, in result order (R173). -/
structure QueueCounters where
  admitted : Count := 0
  noRecord : Count := 0
  poolEmpty : Count := 0
  quota : Count := 0
  flushed : Count := 0
  deriving DecidableEq, Repr

/-- The counters of the tracker group, in result order (R173). -/
structure TrackerCounters where
  acceptedMarks : Count := 0
  earlyMarks : Count := 0
  missingMarks : Count := 0
  runtSpans : Count := 0
  offPortMarks : Count := 0
  lockLosses : Count := 0
  deriving DecidableEq, Repr

/-- The counters of the sequencer group, in result order (R173). -/
structure SequencerCounters where
  cycles : Count := 0
  truncations : Count := 0
  skippedEntries : Count := 0
  stepTimeouts : Count := 0
  straySteps : Count := 0
  settleCancels : Count := 0
  heldBoundaries : Count := 0
  deriving DecidableEq, Repr

/-- The counters of the agent group, in result order (R173). -/
structure AgentCounters where
  requestsTaken : Count := 0
  fifoOverflows : Count := 0
  shortFrames : Count := 0
  requestsRefused : Count := 0
  responsesLost : Count := 0
  noticesLost : Count := 0
  deriving DecidableEq, Repr

/-- The Counter Store, 23 groups (R173). -/
structure Counters where
  ports : Pair PortCounters
  queues : Pair (Vector QueueCounters 9)
  tracker : TrackerCounters
  sequencer : SequencerCounters
  agent : AgentCounters
  deriving DecidableEq, Repr

/-- Every counter at 0 (R173). -/
def Counters.zero : Counters :=
  ⟨⟨{}, {}⟩, ⟨Vector.replicate 9 {}, Vector.replicate 9 {}⟩, {}, {}, {}⟩

/-- The causes of a lock loss, in the order of their encoding (R16, section 12.2). -/
inductive LossCause
  | missing
  | disabled
  | linkDown
  | trafficReset
  deriving DecidableEq, Repr

/-- The occasions of a swap, in the order of their encoding (R171, section 12.2). -/
inductive Occasion
  | immediate
  | cycleStart
  | freeEntry
  | stoppedEntry
  deriving DecidableEq, Repr

/-- A notice's kind with its detail (R177). -/
inductive NoticeDetail
  | lockAcquired (ref : Nat)
  | lockRegained (ref : Nat)
  | holdoverEntered (boundary : Time)
  | lockLost (cause : LossCause)
  | commitDone (active : BankId) (occasion : Occasion)
  | commitCancelled (staged : BankId)
  | linkChange (port : Port) (link : Link)
  deriving DecidableEq, Repr

/-- A notice record (R177). -/
structure Notice where
  detail : NoticeDetail
  time : Time
  cycle : Count
  deriving DecidableEq, Repr

/-- The Notice Queue (R177). -/
structure NoticeQueue where
  records : List Notice
  sequence : Word16
  loss : Bool
  deriving DecidableEq, Repr

/-- The Notice Queue after reset (R177). -/
def NoticeQueue.powerOn : NoticeQueue := ⟨[], 0, false⟩

/-! ### The whole part -/

/-- The state of the CG2. The model's own fields: `tieCount` is the counter of the free order (log entry 3), `handed` the events that have been
handed out at the present part time (log entry 1), `pending` the queue of commands. -/
structure State where
  time : Time
  pins : Pins
  straps : Straps
  ports : Pair LinePort
  egress : Pair Egress
  pool : Pool
  classifier : Classifier
  tracker : Tracker
  sequencer : Sequencer
  programs : ProgramStore
  agent : Agent
  config : ConfigItems
  counters : Counters
  notices : NoticeQueue
  tieCount : Nat
  handed : List Instr
  pending : List Instr
  deriving DecidableEq, Repr

/-- No meaning of this model ends in a fault: the manual describes no event that stops the part (INVENTORY.md, Faults). -/
inductive Fault
  deriving DecidableEq, Repr

/-- Why a command is refused. -/
inductive Refusal
  /-- Raised by exec for a row that has no meaning yet; safe. No arm raises it in this model. -/
  | notModelled (mnemonic : String)
  deriving DecidableEq, Repr

/-- Every item of every block at its power-on value (R1, R23, R38, R63, R81, R98, R116, R131, R140, R150, R173, R177), part time 0 and the
outputs low, with the given latched straps and pin levels. The queue of commands and the free order's counter are no item of a block; nothing
has been handed out at part time 0. -/
def State.powerOn (straps : Straps) (resetN : Bool) (phy : Pair Link) (tieCount : Nat) (pending : List Instr) : State where
  time := 0
  pins := ⟨resetN, phy, false, false⟩
  straps := straps
  ports := ⟨⟨.down, Receiver.idle⟩, ⟨.down, Receiver.idle⟩⟩
  egress := ⟨Egress.powerOn, Egress.powerOn⟩
  pool := Pool.powerOn
  classifier := ⟨Vector.replicate 64 MatchEntry.powerOn, Vector.replicate 64 0⟩
  tracker := Tracker.powerOn
  sequencer := Sequencer.powerOn
  programs := ProgramStore.powerOn
  agent := Agent.powerOn
  config := ConfigItems.powerOn straps
  counters := Counters.zero
  notices := NoticeQueue.powerOn
  tieCount := tieCount
  handed := []
  pending := pending

/-- The straps the model's reset state has latched: all low (log entry 4). -/
def lowStraps : Straps := ⟨.mbps100, .mbps100, 0⟩

/-- The part right after the release of RESET_N with all straps low and both PHY indications DOWN (R95, log entry 4). -/
def State.reset : State := State.powerOn lowStraps true ⟨.down, .down⟩ 0 []

end Sys2Proof.Machine
end

