-- ==== Sys2Proof/Machine/Bytes.lean ====
section
/-! DEFINITION. Byte order of numbers in frames (R182) and the check sequence (R85). -/

namespace Sys2Proof.Machine

/-- The n low bytes of v, most significant first: every multi-byte number is big-endian (R182). -/
def bigEndian : Nat → Nat → List Byte
  | 0, _ => []
  | n + 1, v => BitVec.ofNat 8 (v / 256 ^ n) :: bigEndian n v

/-- The number that bytes spell, most significant first (R182). -/
def numberOf (bytes : List Byte) : Nat := bytes.foldl (fun acc b => acc * 256 + b.toNat) 0

/-- The number in the n bytes at an offset; bytes that are not there read as nothing. -/
def fieldAt (bytes : List Byte) (off n : Nat) : Nat := numberOf ((bytes.drop off).take n)

/-- One byte: 1 for yes, on, present; 0 for no, off, absent (section 12.1). -/
def flagByte (b : Bool) : List Byte := [if b then 1 else 0]

/-- The value of `f n`. The match makes an evaluator compute n before it goes on. -/
def strictly {α : Type} (f : Nat → α) : Nat → α
  | 0 => f 0
  | n + 1 => f (n + 1)

/-- One bit of the cyclic redundancy check: polynomial 0x04C11DB7 with the register's bits in the order in which the bits of a byte are
processed, least significant first, in which its word is 0xEDB88320 (R85, log entry 6). -/
def crcBit (c : Nat) : Nat := if c % 2 = 1 then (c / 2) ^^^ 0xEDB88320 else c / 2

/-- One byte of the check, least significant bit first (R85). -/
def crcByte (c : Nat) (b : Byte) : Nat :=
  crcBit (crcBit (crcBit (crcBit (crcBit (crcBit (crcBit (crcBit (c ^^^ b.toNat))))))))

/-- The register after the bytes. -/
def crcBytes : List Byte → Nat → Nat
  | [], c => c
  | b :: bs, c => strictly (crcBytes bs) (crcByte c b)

/-- The 32-bit check over bytes: initial value of all ones, complemented result (R85). -/
def crc32 (bytes : List Byte) : Nat := crcBytes bytes 0xFFFFFFFF ^^^ 0xFFFFFFFF

/-- The check sequence as the last four bytes of a frame: a multi-byte number of a frame, so big-endian (section 5 of the scope file, log
entry 6). -/
def checkSequence (bytes : List Byte) : List Byte := bigEndian 4 (crc32 bytes)

/-- Whether a whole frame's last four bytes are the check sequence of those before them (R85). -/
def checkPasses (frame : List Byte) : Bool :=
  frame.drop (frame.length - 4) == checkSequence (frame.take (frame.length - 4))

/-- A frame the part builds: padded to 64 bytes when shorter, then its check sequence (R138, R179). The padding of a response is zeros by R185;
R179 does not state the padding bytes of a notice frame, and that they are zeros too is the model's choice (log entry 23). -/
def closeFrame (content : List Byte) : List Byte :=
  let padded := content ++ List.replicate (Config.frameMin - 4 - content.length) 0
  padded ++ checkSequence padded

end Sys2Proof.Machine
end

