-- ==== Sys2Proof/Machine/Flags.lean ====
section
/-! DEFINITION. Judgements that give a yes or no: the order of part times (R92), the guard (R69), and the flag bits and codes of headers
(section 12.1). -/

namespace Sys2Proof.Machine

/-- Part time a is after part time b (R92). -/
def Time.after (a b : Time) : Bool :=
  decide (1 ≤ (a - b).toNat) && decide ((a - b).toNat ≤ 2 ^ 47 - 1)

/-- The part time n ticks after t, wrapping (R92). -/
def Time.plus (t : Time) (n : Nat) : Time := t + BitVec.ofNat 48 n

/-- The ticks from b to a, modulo the wrap (R92). -/
def Time.since (a b : Time) : Nat := (a - b).toNat

/-- A head with transmission time d passes when moment plus d is no later than the guard limit; with a limit of none every head passes
(R69). -/
def guardPasses (limit : Option Time) (moment : Time) (d : Nat) : Bool :=
  match limit with
  | none => true
  | some g => !Time.after (Time.plus moment d) g

/-- Whether a gate set names a queue. -/
def GateSet.opens (g : GateSet) (q : QueueName) : Bool := g.getLsbD q.val

/-- A station address is individual: the least significant bit of its first byte is zero (R143). -/
def individualAddress (m : Mac) : Bool := !(m.getLsbD 40)

/-- Whether the request flags hold CLEAR, bit 0 (section 12.1). -/
def clearFlag (flags : Word16) : Bool := flags.getLsbD 0

/-- Whether the request flags hold a flag the request header does not define: any but CLEAR (R133). -/
def undefinedFlags (flags : Word16) : Bool := (flags &&& 0xFFFE) != 0

/-- DUPLICATE, bit 1 of the response flags (section 12.1). -/
def flagDuplicate : Word16 := 0x0002

/-- APPLIED, bit 2 of the response flags (section 12.1). -/
def flagApplied : Word16 := 0x0004

/-- PENDING, bit 3 of the response flags (section 12.1). -/
def flagPending : Word16 := 0x0008

/-- LOSS_BEFORE, bit 4 of the notice flags (section 12.1). -/
def flagLossBefore : Word16 := 0x0010

/-- The encoding of a status (section 12.1). -/
def Status.byte : Status → Byte
  | .ok => 0
  | .badVersion => 1
  | .badCode => 2
  | .badArgument => 3
  | .notOwner => 4
  | .sessionHeld => 5
  | .sequenceGap => 6
  | .wrongState => 7
  | .stagedLocked => 8
  | .commitPending => 9
  | .noCommit => 10
  | .programInvalid => 11

/-- The encoding of a port (section 12.1). -/
def portByte : Port → Byte
  | .a => 0
  | .b => 1

/-- The encoding of a link state (section 12.1). -/
def linkByte : Link → Byte
  | .down => 0
  | .up => 1

/-- The encoding of a bank number (section 12.1). -/
def bankByte : BankId → Byte
  | .bank0 => 0
  | .bank1 => 1

/-- The encoding of a speed (section 12.4, IDENTIFY). -/
def speedByte : Speed → Byte
  | .mbps100 => 0
  | .mbps1000 => 1

/-- The encoding of a tracker state: the order of R1, from 0. -/
def trackerStateByte : TrackerState → Byte
  | .off => 0
  | .seeking => 1
  | .acquiring => 2
  | .locked => 3
  | .holdover => 4

/-- The encoding of a sequencer state: the order of R38, from 0. -/
def sequencerStateByte : SequencerState → Byte
  | .stopped => 0
  | .free => 1
  | .running => 2
  | .halted => 3
  | .rejoining => 4

/-- The encoding of an entry kind (section 12.3). -/
def entryKindByte : EntryEnd → Byte
  | .timed _ _ => 0
  | .step _ _ _ => 1
  | .tail => 2

/-- The encoding of a lock-loss cause (section 12.2). -/
def lossCauseByte : LossCause → Byte
  | .missing => 0
  | .disabled => 1
  | .linkDown => 2
  | .trafficReset => 3

/-- The encoding of a swap's occasion (section 12.2). -/
def occasionByte : Occasion → Byte
  | .immediate => 0
  | .cycleStart => 1
  | .freeEntry => 2
  | .stoppedEntry => 3

/-- The encoding of a notice's kind (section 12.1). -/
def NoticeDetail.kind : NoticeDetail → Nat
  | .lockAcquired _ => 1
  | .lockRegained _ => 2
  | .holdoverEntered _ => 3
  | .lockLost _ => 4
  | .commitDone _ _ => 5
  | .commitCancelled _ => 6
  | .linkChange _ _ => 7

/-- Whether the tracker is LOCKED or HOLDOVER. -/
def TrackerState.isLocked : TrackerState → Bool
  | .off => false
  | .seeking => false
  | .acquiring => false
  | .locked => true
  | .holdover => true

/-- Whether the sequencer follows a program: RUNNING, HALTED or REJOINING. -/
def SequencerState.follows : SequencerState → Bool
  | .stopped => false
  | .free => false
  | .running => true
  | .halted => true
  | .rejoining => true

end Sys2Proof.Machine
end

