-- ==== Sys2Proof/Machine/Ops.lean ====
section
/-! DEFINITION. The shared operations: the cells' memory, the one home of each register, counters, the buffer pool, the schedulers, admission,
gate changes and notices. -/

namespace Sys2Proof.Machine

/-! ### The cells' memory -/

/-- What a byte of a cell that nothing has written reads as (log entry 10). -/
def Memory.unlisted : Byte := 0

/-- The byte at an address. -/
def Memory.read (m : Memory) (a : Nat) : Byte :=
  match m.find? (fun c => c.1 == a) with
  | some c => c.2
  | none => Memory.unlisted

/-- The pairs that list bytes from an address on, leaving out those that read as an unlisted address does. -/
def Memory.listed : Nat → List Byte → Memory
  | _, [] => []
  | a, b :: bs => if b = Memory.unlisted then Memory.listed (a + 1) bs else (a, b) :: Memory.listed (a + 1) bs

/-- Write bytes from an address on. -/
def Memory.write (m : Memory) (a : Nat) (bytes : List Byte) : Memory :=
  m.filter (fun c => decide (c.1 < a)) ++ Memory.listed a bytes
    ++ m.filter (fun c => decide (a + bytes.length ≤ c.1))

/-- The canonical form: addresses strictly rising, no entry equal to what an unlisted address reads as. -/
abbrev Memory.wf (m : Memory) : Prop :=
  m.Pairwise (fun x y => x.1 < y.1) ∧ ∀ c ∈ m, c.2 ≠ Memory.unlisted

/-- The address of a cell's first byte. -/
def cellAddress (c : CellNo) : Nat := c.val * Config.cellSize

/-- Store a frame's bytes in cells, 128 to each, in the order of the cell list (R117). -/
def storeFrame : Memory → List CellNo → List Byte → Memory
  | m, [], _ => m
  | m, c :: cs, bytes =>
    storeFrame (m.write (cellAddress c) (bytes.take Config.cellSize)) cs (bytes.drop Config.cellSize)

/-- The bytes of the cells, in the order of the cell list, cut to the frame's length (R117). -/
def loadFrame (m : Memory) (cells : List CellNo) (length : Nat) : List Byte :=
  (cells.flatMap (fun c => (List.range Config.cellSize).map (fun i => m.read (cellAddress c + i)))).take length

/-! ### Accessors -/

/-- Change one of a pair. -/
def Pair.modify {α : Type} (x : Pair α) (p : Port) (f : α → α) : Pair α := x.set p (f (x.get p))

/-- A line port's state. -/
def State.port (s : State) (p : Port) : LinePort := s.ports.get p

/-- Set a line port's state. -/
def State.setPort (s : State) (p : Port) (v : LinePort) : State := { s with ports := s.ports.set p v }

/-- A port's speed: its latched strap (R82). -/
def State.speed (s : State) : Port → Speed
  | .a => s.straps.speedA
  | .b => s.straps.speedB

/-- A port's scheduler and transmitter. -/
def State.sched (s : State) (p : Port) : Egress := s.egress.get p

/-- Set a port's scheduler and transmitter. -/
def State.setSched (s : State) (p : Port) (e : Egress) : State := { s with egress := s.egress.set p e }

/-- One of the 18 queues. -/
def State.queue (s : State) (p : Port) (q : QueueName) : Queue := (s.sched p).queues[q]

/-- Set one of the 18 queues. -/
def State.setQueue (s : State) (p : Port) (q : QueueName) (v : Queue) : State :=
  s.setSched p { s.sched p with queues := (s.sched p).queues.set q v }

/-- Set a port's in-flight record. -/
def State.setInFlight (s : State) (p : Port) (f : Option InFlight) : State :=
  s.setSched p { s.sched p with inFlight := f }

/-- A frame record. -/
def State.record (s : State) (h : Handle) : FrameRecord := s.pool.records[h]

/-- Set a frame record. -/
def State.setRecord (s : State) (h : Handle) (r : FrameRecord) : State :=
  { s with pool := { s.pool with records := s.pool.records.set h r } }

/-- A queue's quota (R120). -/
def State.quota (s : State) (p : Port) (q : QueueName) : Nat := (s.config.quotas.get p)[q]

/-- The bytes of the frame a record describes. -/
def State.frameBytes (s : State) (h : Handle) : List Byte :=
  loadFrame s.pool.memory (s.record h).cells (s.record h).length

/-- An entry of a bank (R26). -/
def Bank.entry (b : Bank) (i : EntryIndex) : Entry := b.entries[i]

/-- The bank that holds the active role (R24). -/
def ProgramStore.activeBank (ps : ProgramStore) : Bank :=
  match ps.active with
  | .bank0 => ps.bank0
  | .bank1 => ps.bank1

/-- The number of the bank that holds the staged role (R24). -/
def ProgramStore.staged (ps : ProgramStore) : BankId :=
  match ps.active with
  | .bank0 => .bank1
  | .bank1 => .bank0

/-- The bank that holds the staged role (R24). -/
def ProgramStore.stagedBank (ps : ProgramStore) : Bank :=
  match ps.active with
  | .bank0 => ps.bank1
  | .bank1 => ps.bank0

/-- Replace the bank that holds the staged role. -/
def ProgramStore.setStaged (ps : ProgramStore) (b : Bank) : ProgramStore :=
  match ps.active with
  | .bank0 => { ps with bank1 := b }
  | .bank1 => { ps with bank0 := b }

/-! ### Counters -/

/-- Count one more, stopping at 4,294,967,295 (R173, R109). -/
def Count.up (c : Count) : Count := if c = BitVec.allOnes 32 then c else c + 1

/-- Change the counters of a port group. -/
def State.countPort (s : State) (p : Port) (f : PortCounters → PortCounters) : State :=
  { s with counters := { s.counters with ports := s.counters.ports.modify p f } }

/-- Change the counters of a queue group. -/
def State.countQueue (s : State) (p : Port) (q : QueueName) (f : QueueCounters → QueueCounters) : State :=
  { s with counters := { s.counters with
      queues := s.counters.queues.modify p (fun v => v.set q (f v[q])) } }

/-- Change the counters of the tracker group. -/
def State.countTracker (s : State) (f : TrackerCounters → TrackerCounters) : State :=
  { s with counters := { s.counters with tracker := f s.counters.tracker } }

/-- Change the counters of the sequencer group. -/
def State.countSequencer (s : State) (f : SequencerCounters → SequencerCounters) : State :=
  { s with counters := { s.counters with sequencer := f s.counters.sequencer } }

/-- Change the counters of the agent group. -/
def State.countAgent (s : State) (f : AgentCounters → AgentCounters) : State :=
  { s with counters := { s.counters with agent := f s.counters.agent } }

/-! ### Releasing records -/

/-- Free a record: its cells join the back of the free-cell list in their order, its flag is cleared, and it joins the back of the
free-record list (R125). -/
def freeRecord (h : Handle) (s : State) : State :=
  { s with pool := { s.pool with
      freeCells := s.pool.freeCells ++ (s.record h).cells
      freeRecords := s.pool.freeRecords ++ [h]
      records := s.pool.records.set h FrameRecord.blank } }

/-- Abort a transmission: the record and its cells are freed, the completion wait is gone with the in-flight record (R75). -/
def abortTransmission (p : Port) (s : State) : State :=
  match (s.sched p).inFlight with
  | some f => (freeRecord f.record s).setInFlight p none
  | none => s

/-- Free records from the front to the back, counting each as flushed at the queue (R126). -/
def flushRecords (p : Port) (q : QueueName) : List Handle → State → State
  | [], s => s
  | h :: hs, s =>
    flushRecords p q hs ((freeRecord h s).countQueue p q (fun c => { c with flushed := Count.up c.flushed }))

/-- Flush one queue (R126). -/
def flushQueue (p : Port) (q : QueueName) (s : State) : State :=
  (flushRecords p q (s.queue p q).records s).setQueue p q Queue.empty

/-- The queues of a port in priority order: M, then 7 to 0 (R68, R126). -/
def priorityOrder : List QueueName := [8, 7, 6, 5, 4, 3, 2, 1, 0]

/-- Flush the nine queues of a port in the order M, 7 to 0 (R126). -/
def flushPort (p : Port) (s : State) : State := priorityOrder.foldl (fun s q => flushQueue p q s) s

/-! ### Schedulers and transmitters -/

/-- Ticks for one byte at a speed (R73). -/
def ticksPerByte : Speed → Nat
  | .mbps1000 => 1
  | .mbps100 => 10

/-- The transmission time of a frame of the given length: (L + 20) × t (R73). -/
def transmissionTime (speed : Speed) (length : Nat) : Nat := (length + 20) * ticksPerByte speed

/-- The transmission time of a record at a port. -/
def State.recordTime (s : State) (p : Port) (h : Handle) : Nat :=
  transmissionTime (s.speed p) (s.record h).length

/-- Start the head of a queue (R72, R124): the record leaves the front, the queue's counts fall, and the record is in flight. -/
def startHead (p : Port) (q : QueueName) (h : Handle) (rest : List Handle) (s : State) : State :=
  let old := s.queue p q
  (s.setQueue p q ⟨rest, old.frames - 1, old.cells - (s.record h).cells.length⟩).setInFlight p
    (some ⟨h, s.time, Time.plus s.time (s.recordTime p h), false⟩)

/-- Pass over a head that fails the guard: the first time the record is flagged and a guard hold is counted (R70). -/
def holdHead (p : Port) (h : Handle) (s : State) : State :=
  if (s.record h).guardHeld then s
  else (s.setRecord h { s.record h with guardHeld := true }).countPort p
    (fun c => { c with guardHolds := Count.up c.guardHolds })

/-- Consider queues in order: closed and empty queues are passed, a head that passes the guard is started and ends the evaluation, a head
that fails is held (R68). -/
def considerQueues (p : Port) : List QueueName → State → State
  | [], s => s
  | q :: qs, s =>
    if GateSet.opens (s.sched p).presentation.gates q then
      match (s.queue p q).records with
      | [] => considerQueues p qs s
      | h :: rest =>
        if guardPasses (s.sched p).presentation.limit s.time (s.recordTime p h) then
          startHead p q h rest s
        else considerQueues p qs (holdHead p h s)
    else considerQueues p qs s

/-- Evaluate a port's queues when its transmitter is idle and its link is UP (R67). -/
def evaluate (p : Port) (s : State) : State :=
  if (s.sched p).inFlight.isNone && (s.port p).link == .up then considerQueues p priorityOrder s else s

/-! ### Admission -/

/-- Why an admission is refused (R122). -/
inductive DropReason
  | noRecord
  | poolEmpty
  | quota
  deriving DecidableEq, Repr

/-- The cells a frame of the given length needs: ceil(L / 128) (R117). -/
def cellsNeeded (length : Nat) : Nat := (length + 127) / 128

/-- Judge an admission: the first failing condition, or none when the frame is accepted (R121, R122). -/
def admissionVerdict (p : Port) (q : QueueName) (length : Nat) (s : State) : Option DropReason :=
  if s.pool.freeRecords.isEmpty then some .noRecord
  else if s.pool.freeCells.length < cellsNeeded length then some .poolEmpty
  else if s.quota p q < (s.queue p q).cells + cellsNeeded length then some .quota
  else none

/-- Store an accepted frame, steps 1 to 5 of R121, in the record at the front of the free-record list. -/
def storeAdmitted (p : Port) (q : QueueName) (bytes : List Byte) (h : Handle) (rest : List Handle) (s : State) : State :=
  let n := cellsNeeded bytes.length
  let cells := s.pool.freeCells.take n
  let old := s.queue p q
  let pool : Pool :=
    { freeRecords := rest
      freeCells := s.pool.freeCells.drop n
      records := s.pool.records.set h ⟨bytes.length, p, q, cells, false⟩
      memory := storeFrame s.pool.memory cells bytes }
  (({ s with pool := pool }.setQueue p q ⟨old.records ++ [h], old.frames + 1, old.cells + n⟩).countQueue p q
    (fun c => { c with admitted := Count.up c.admitted }))

/-- The whole of an accepted admission: the frame is stored, and the scheduler evaluates when the queue held no record (R121). -/
def acceptFrame (p : Port) (q : QueueName) (bytes : List Byte) (s : State) : State :=
  match s.pool.freeRecords with
  | [] => s
  | h :: rest =>
    let wasEmpty := (s.queue p q).records.isEmpty
    let s' := storeAdmitted p q bytes h rest s
    if wasEmpty then evaluate p s' else s'

/-- Count a refused frame at its queue (R122, R130). -/
def countDrop (p : Port) (q : QueueName) (reason : DropReason) (s : State) : State :=
  s.countQueue p q (fun c =>
    match reason with
    | .noRecord => { c with noRecord := Count.up c.noRecord }
    | .poolEmpty => { c with poolEmpty := Count.up c.poolEmpty }
    | .quota => { c with quota := Count.up c.quota })

/-- Offer a forwarded frame: a refusal is counted at the queue and the frame is lost (R122, R123). -/
def offerForwarded (p : Port) (q : QueueName) (bytes : List Byte) (s : State) : State :=
  match admissionVerdict p q bytes.length s with
  | none => acceptFrame p q bytes s
  | some r => countDrop p q r s

/-- Offer a response to the M queue of the arrival port: a refusal is counted at the queue and as a response lost (R122, R139). -/
def offerResponse (p : Port) (bytes : List Byte) (s : State) : State :=
  match admissionVerdict p queueM bytes.length s with
  | none => acceptFrame p queueM bytes s
  | some r => (countDrop p queueM r s).countAgent (fun c => { c with responsesLost := Count.up c.responsesLost })

/-! ### Notices -/

/-- The detail bytes of a notice, 8 of them, unused ones 0 (section 12.2). -/
def noticeDetailBytes : NoticeDetail → List Byte
  | .lockAcquired ref => bigEndian 4 ref ++ List.replicate 4 0
  | .lockRegained ref => bigEndian 4 ref ++ List.replicate 4 0
  | .holdoverEntered t => bigEndian 6 t.toNat ++ List.replicate 2 0
  | .lockLost cause => lossCauseByte cause :: List.replicate 7 0
  | .commitDone active occasion => bankByte active :: occasionByte occasion :: List.replicate 6 0
  | .commitCancelled staged => bankByte staged :: List.replicate 7 0
  | .linkChange port link => portByte port :: linkByte link :: List.replicate 6 0

/-- The notice frame of a record: to the owner, from the station address, with the management type, the session number, the notice
sequence and the loss-before indication then in force (R179, sections 12.1 and 12.2), padded with zeros (log entry 23). -/
def noticeFrame (s : State) (n : Notice) : List Byte :=
  closeFrame
    (bigEndian 6 s.agent.session.ownerAddress.toNat ++ bigEndian 6 s.config.stationAddress.toNat
      ++ bigEndian 2 s.config.managementType.toNat
      ++ [1, 0x80] ++ bigEndian 2 30 ++ bigEndian 2 s.notices.sequence.toNat
      ++ bigEndian 2 s.agent.session.number.toNat
      ++ bigEndian 2 (if s.notices.loss then flagLossBefore else 0).toNat
      ++ [BitVec.ofNat 8 n.detail.kind, 0]
      ++ bigEndian 6 n.time.toNat ++ bigEndian 4 n.cycle.toNat ++ noticeDetailBytes n.detail)

/-- Offer the head of the notice queue, and after each acceptance the new head, until the queue is empty or an offer is refused (R179).
The fuel is the number of offers at most. -/
def offerNotices : Nat → State → State
  | 0, s => s
  | fuel + 1, s =>
    match s.notices.records with
    | [] => s
    | n :: rest =>
      let p := s.agent.session.ownerPort
      let frame := noticeFrame s n
      match admissionVerdict p queueM frame.length s with
      | some _ => s
      | none =>
        let s' := acceptFrame p queueM frame s
        offerNotices fuel { s' with notices := ⟨rest, s'.notices.sequence + 1, false⟩ }

/-- Offer as long as the queue holds notices. -/
def offerAllNotices (s : State) : State := offerNotices s.notices.records.length s

/-- Whether a notice kind is in the notice enable set (R178). -/
def noticeEnabled (s : State) (d : NoticeDetail) : Bool := s.config.noticeEnable.getLsbD (d.kind - 1)

/-- Raise a notice with the cycle number as the whole event leaves it (R177, R178): discarded without a session or when its kind is not
enabled, dropped and counted at a full queue, else queued and the head offered. -/
def raiseNotice (d : NoticeDetail) (cycle : Count) (s : State) : State :=
  if !s.agent.session.isOpen then s
  else if !noticeEnabled s d then s
  else if Config.noticeCapacity ≤ s.notices.records.length then
    { s with notices := { s.notices with loss := true } }.countAgent
      (fun c => { c with noticesLost := Count.up c.noticesLost })
  else offerAllNotices
    { s with notices := { s.notices with records := s.notices.records ++ [⟨d, s.time, cycle⟩] } }

/-! ### Gate changes -/

/-- Whether a gate change is an overrun of the frame in flight: its queue is not in the new gate set, its completion due lies after the
moment, and the flag is clear (R66). -/
def isOverrun (s : State) (f : InFlight) (gates : GateSet) : Bool :=
  !GateSet.opens gates (s.record f.record).queue && Time.after f.due s.time && !f.overrunCounted

/-- A scheduler takes a gate change (R65): the presentation is replaced, a frame in flight is judged for overrun, and with the transmitter
idle and the link UP the scheduler evaluates. -/
def takeGateChange (p : Port) (new : Presentation) (s : State) : State :=
  let s' := s.setSched p { s.sched p with presentation := new }
  match (s'.sched p).inFlight with
  | some f =>
    if isOverrun s' f new.gates then
      (s'.setInFlight p (some { f with overrunCounted := true })).countPort p
        (fun c => { c with overruns := Count.up c.overruns })
    else s'
  | none => evaluate p s'

/-- Present to one port: a gate change is delivered only when the presentation differs from the one the event began with (R40). -/
def presentTo (p : Port) (new : Presentation) (s : State) : State :=
  if s.sequencer.presentation.get p = new then s
  else takeGateChange p new
    { s with sequencer := { s.sequencer with presentation := s.sequencer.presentation.set p new } }

/-- Present to both ports, A then B (R40, log entry 16). -/
def presentBoth (new : Pair Presentation) (s : State) : State := presentTo .b new.b (presentTo .a new.a s)

/-- The free gate sets with no guard limit (R39). -/
def freePresentation (s : State) : Pair Presentation :=
  ⟨⟨s.config.freeGates.a, none⟩, ⟨s.config.freeGates.b, none⟩⟩

/-! ### The moments at which events take place -/

/-- RESET_N is low: the part is held in reset (R95). -/
def State.inReset (s : State) : Bool := !s.pins.resetN

/-- A wait is due: it is held and part time has reached its due time (R93). -/
def waitDue (wait : Option Time) (s : State) : Bool := wait == some s.time

/-- The effect of an event outside reset; while RESET_N is low the event does not take place (R95, log entry 15). -/
def outsideReset (s : State) (f : State → State) : State := if s.inReset then s else f s

end Sys2Proof.Machine
end

