-- ==== Sys2Proof/Machine/Operands.lean ====
section
/-! DEFINITION. The operand forms: the fields of a received frame (R83), a request's header and arguments (R133, chapter 12), the Match Table,
program and config records in both directions, and which row of the table a request is. -/

namespace Sys2Proof.Machine

/-! ### Received frames -/

/-- The fields a port reads from a frame (R83). The tag is a priority and a VLAN id. -/
structure FrameFields where
  destination : Mac
  source : Mac
  tag : Option (Fin 8 × BitVec 12)
  etherType : Word16
  payloadAt : Nat
  deriving DecidableEq, Repr

/-- Read the fields of a frame: a frame is tagged when the two bytes after its source address hold 0x8100; only the first tag is read (R83). -/
def frameFields (bytes : List Byte) : FrameFields :=
  let destination := BitVec.ofNat 48 (fieldAt bytes 0 6)
  let source := BitVec.ofNat 48 (fieldAt bytes 6 6)
  if fieldAt bytes 12 2 = 0x8100 then
    let tci := fieldAt bytes 14 2
    ⟨destination, source, some (Fin.ofNat 8 (tci / 8192), BitVec.ofNat 12 tci),
      BitVec.ofNat 16 (fieldAt bytes 16 2), 18⟩
  else ⟨destination, source, none, BitVec.ofNat 16 (fieldAt bytes 12 2), 14⟩

/-- The payload: from the first byte after the type (R182) to the last byte before the check sequence (log entry 9). -/
def framePayload (bytes : List Byte) : List Byte :=
  (bytes.take (bytes.length - 4)).drop (frameFields bytes).payloadAt

/-! ### Requests -/

/-- A request as its header and arguments (R133, section 12.1). -/
structure Request where
  port : Port
  source : Mac
  version : Byte
  code : Byte
  length : Nat
  sequence : Word16
  session : Word16
  flags : Word16
  args : List Byte
  deriving DecidableEq, Repr

/-- Read a request from its slot. The argument bytes are those between offset 10 and the request length (R183). -/
def requestOf (slot : Slot) : Request :=
  let payload := framePayload slot.bytes
  let length := fieldAt payload 2 2
  { port := slot.port
    source := slot.source
    version := payload.getD 0 0
    code := payload.getD 1 0
    length := length
    sequence := BitVec.ofNat 16 (fieldAt payload 4 2)
    session := BitVec.ofNat 16 (fieldAt payload 6 2)
    flags := BitVec.ofNat 16 (fieldAt payload 8 2)
    args := (payload.take length).drop 10 }

/-- The short check: the payload cannot hold the header, or the stated length is below the header's size or above what the payload holds
(R133). -/
def isShort (slot : Slot) : Bool :=
  let payload := framePayload slot.bytes
  let length := fieldAt payload 2 2
  decide (payload.length < 10) || decide (length < 10) || decide (payload.length < length)

/-- The config items by identifier (R140). -/
inductive ConfigId
  | stationAddress
  | managementType
  | trackerEnable
  | cadencePort
  | depth
  | window
  | holdover
  | spanMin
  | spanMax
  | sequencerEnable
  | freeGates (port : Port)
  | syncOutEnable
  | defaultAction
  | quota (port : Port) (queue : QueueName)
  | noticeEnable
  deriving DecidableEq, Repr

/-- The item an identifier names, if any (R140). -/
def configIdOf (n : Nat) : Option ConfigId :=
  if n = 0x01 then some .stationAddress
  else if n = 0x02 then some .managementType
  else if n = 0x10 then some .trackerEnable
  else if n = 0x11 then some .cadencePort
  else if n = 0x12 then some .depth
  else if n = 0x13 then some .window
  else if n = 0x14 then some .holdover
  else if n = 0x15 then some .spanMin
  else if n = 0x16 then some .spanMax
  else if n = 0x20 then some .sequencerEnable
  else if n = 0x21 then some (.freeGates .a)
  else if n = 0x22 then some (.freeGates .b)
  else if n = 0x23 then some .syncOutEnable
  else if n = 0x30 then some .defaultAction
  else if 0x40 ≤ n ∧ n ≤ 0x48 then some (.quota .a (Fin.ofNat 9 (n - 0x40)))
  else if 0x50 ≤ n ∧ n ≤ 0x58 then some (.quota .b (Fin.ofNat 9 (n - 0x50)))
  else if n = 0x60 then some .noticeEnable
  else none

/-- The 33 identifiers in ascending order (R141, R185). -/
def configIdentifiers : List Nat :=
  [0x01, 0x02, 0x10, 0x11, 0x12, 0x13, 0x14, 0x15, 0x16, 0x20, 0x21, 0x22, 0x23, 0x30]
    ++ [0x40, 0x41, 0x42, 0x43, 0x44, 0x45, 0x46, 0x47, 0x48]
    ++ [0x50, 0x51, 0x52, 0x53, 0x54, 0x55, 0x56, 0x57, 0x58] ++ [0x60]

/-- The size in bytes of an item's value (section 12.4). -/
def ConfigId.size : ConfigId → Nat
  | .stationAddress => 6
  | .managementType => 2
  | .trackerEnable => 1
  | .cadencePort => 1
  | .depth => 1
  | .window => 1
  | .holdover => 1
  | .spanMin => 4
  | .spanMax => 4
  | .sequencerEnable => 1
  | .freeGates _ => 2
  | .syncOutEnable => 1
  | .defaultAction => 3
  | .quota _ _ => 2
  | .noticeEnable => 1

/-- The row of a WRITE_CONFIG request by its arguments. A write of an enable item whose value is neither the one byte for off nor the one
byte for on has no row of its own (log entry 8). -/
def writeConfigRow (args : List Byte) : Instr :=
  match args with
  | [] => .writeConfig
  | id :: value =>
    match configIdOf id.toNat with
    | none => .writeConfig
    | some .stationAddress => .writeStationAddress
    | some .managementType => .writeManagementType
    | some .trackerEnable =>
      if value = [1] then .trackerEnableOn else if value = [0] then .trackerEnableOff else .writeConfig
    | some .cadencePort => .writeTrackerItem
    | some .depth => .writeTrackerItem
    | some .window => .writeTrackerItem
    | some .holdover => .writeTrackerItem
    | some .spanMin => .writeTrackerItem
    | some .spanMax => .writeTrackerItem
    | some .sequencerEnable =>
      if value = [1] then .sequencerEnableOn else if value = [0] then .sequencerEnableOff else .writeConfig
    | some (.freeGates _) => .writeFreeGateSet
    | some .syncOutEnable => .writeSyncOutEnable
    | some .defaultAction => .writeDefaultAction
    | some (.quota _ _) => .writeQuota
    | some .noticeEnable => .writeNoticeEnableSet

/-- The row of a request that is not short, by its code (section 12.1), its CLEAR flag and its arguments. A RESET whose kind is not FULL is
the row RESET_TRAFFIC (log entry 8). -/
def requestRow (r : Request) : Instr :=
  let code := r.code.toNat
  if code = 0x01 then .identify
  else if code = 0x02 then .readConfig
  else if code = 0x03 then writeConfigRow r.args
  else if code = 0x04 then .readStatus
  else if code = 0x05 then (if r.args = [1] then .resetFull else .resetTraffic)
  else if code = 0x10 then .readMatch
  else if code = 0x11 then .writeMatch
  else if code = 0x20 then .readProgram
  else if code = 0x21 then .writeProgram
  else if code = 0x22 then .writeProgramHeader
  else if code = 0x23 then .commit
  else if code = 0x24 then .cancelCommit
  else if code = 0x30 then .halt
  else if code = 0x31 then .resume
  else if code = 0x40 then (if clearFlag r.flags then .readCountersClear else .readCounters)
  else if code = 0x50 then .openSession
  else if code = 0x51 then .renew
  else if code = 0x52 then .closeSession
  else .badCode

/-- The row of the table that taking a slot's request is. -/
def slotRow (slot : Slot) : Instr := if isShort slot then .shortFrameDropped else requestRow (requestOf slot)

/-! ### Enumerations and sets in bytes -/

/-- A Boolean byte: 0 or 1 (R184). -/
def flagOf (n : Nat) : Option Bool := if n = 0 then some false else if n = 1 then some true else none

/-- A gate set: no bit of 9 to 15 set (R184). -/
def gateSetOf (n : Nat) : Option GateSet := if n < 512 then some (BitVec.ofNat 9 n) else none

/-- A priority set: no bit of 9 to 15 set (R184). -/
def prioritySetOf (n : Nat) : Option PrioritySet := if n < 512 then some (BitVec.ofNat 9 n) else none

/-- A port byte (section 12.1). -/
def portOf (n : Nat) : Option Port := if n = 0 then some .a else if n = 1 then some .b else none

/-- An ingress port byte (section 12.3). -/
def ingressOf (n : Nat) : Option Ingress :=
  if n = 0 then some .portA else if n = 1 then some .portB else if n = 2 then some .either else none

/-- A disposition byte (section 12.3). -/
def dispositionOf (n : Nat) : Option Disposition :=
  if n = 0 then some .forward else if n = 1 then some .discard else none

/-- A class byte (section 12.3). -/
def classChoiceOf (n : Nat) : Option ClassChoice :=
  if n < 8 then some (.fixed (Fin.ofNat 8 n)) else if n = 8 then some .fromPriority else none

/-- A mark kind byte (section 12.3). -/
def markKindOf (n : Nat) : Option MarkKind :=
  if n = 0 then some .noMark else if n = 1 then some .cycle else if n = 2 then some .step else none

/-- A default action in three bytes, judged whole (R104). -/
def actionOf (value : List Byte) : Option Action :=
  match dispositionOf (fieldAt value 0 1), classChoiceOf (fieldAt value 1 1), markKindOf (fieldAt value 2 1) with
  | some d, some c, some m => some ⟨d, c, m⟩
  | _, _, _ => none

/-- The bytes of an ingress port. -/
def ingressByte : Ingress → Byte
  | .portA => 0
  | .portB => 1
  | .either => 2

/-- The three bytes of an action (section 12.4). -/
def actionBytes (a : Action) : List Byte :=
  [match a.disposition with
    | .forward => 0
    | .discard => 1,
   match a.classChoice with
    | .fixed c => BitVec.ofNat 8 c.val
    | .fromPriority => 8,
   match a.mark with
    | .noMark => 0
    | .cycle => 1
    | .step => 2]

/-! ### Match Table records (section 12.3) -/

/-- The size of a Match Table entry record. -/
def matchRecordSize : Nat := 25

/-- Judge and read a record field by field in the order of R110; on a failure the field number. -/
def readMatchRecord (b : List Byte) : Except Nat MatchEntry :=
  match flagOf (fieldAt b 0 1) with
  | none => .error 0
  | some valid =>
    match ingressOf (fieldAt b 1 1) with
    | none => .error 1
    | some ingress =>
      match flagOf (fieldAt b 14 1) with
      | none => .error 4
      | some hasType =>
        match prioritySetOf (fieldAt b 17 2) with
        | none => .error 5
        | some priorities =>
          match flagOf (fieldAt b 19 1) with
          | none => .error 6
          | some hasVlan =>
            if hasVlan ∧ 4095 < fieldAt b 20 2 then .error 6
            else
              match dispositionOf (fieldAt b 22 1) with
              | none => .error 7
              | some disposition =>
                match classChoiceOf (fieldAt b 23 1) with
                | none => .error 8
                | some classChoice =>
                  match markKindOf (fieldAt b 24 1) with
                  | none => .error 9
                  | some mark =>
                    .ok
                      { valid := valid
                        ingress := ingress
                        value := BitVec.ofNat 48 (fieldAt b 2 6)
                        mask := BitVec.ofNat 48 (fieldAt b 8 6)
                        etherType := if hasType then some (BitVec.ofNat 16 (fieldAt b 15 2)) else none
                        priorities := priorities
                        vlan := if hasVlan then some (BitVec.ofNat 12 (fieldAt b 20 2)) else none
                        action := ⟨disposition, classChoice, mark⟩ }

/-- A presence byte and a value; an absent value reads as 0 (R184). -/
def optionalField (n : Nat) (v : Option Nat) : List Byte :=
  match v with
  | some x => 1 :: bigEndian n x
  | none => 0 :: List.replicate n 0

/-- The 25 bytes of a Match Table entry (section 12.3). -/
def matchRecordBytes (e : MatchEntry) : List Byte :=
  flagByte e.valid ++ [ingressByte e.ingress] ++ bigEndian 6 e.value.toNat ++ bigEndian 6 e.mask.toNat
    ++ optionalField 2 (e.etherType.map BitVec.toNat) ++ bigEndian 2 e.priorities.toNat
    ++ optionalField 2 (e.vlan.map BitVec.toNat) ++ actionBytes e.action

/-! ### Program records (section 12.3) -/

/-- The size of a program entry record. -/
def entryRecordSize : Nat := 13

/-- The optional fields of an entry record as its kind demands them, fields 4 to 6 of R32; on a failure the field number. -/
def readEntryEnd (b : List Byte) (kind : Nat) : Except Nat EntryEnd :=
  match flagOf (fieldAt b 6 1) with
  | none => .error 4
  | some hasOffset =>
    if hasOffset ≠ decide (kind ≠ 2) then .error 4
    else if hasOffset ∧ ¬(1 ≤ fieldAt b 7 2 ∧ fieldAt b 7 2 ≤ 1023) then .error 4
    else
      match flagOf (fieldAt b 9 1) with
      | none => .error 5
      | some hasSettle =>
        if hasSettle ≠ decide (kind = 1) then .error 5
        else
          match flagOf (fieldAt b 11 1) with
          | none => .error 6
          | some hasNext =>
            if hasNext ≠ decide (kind ≠ 2) then .error 6
            else if hasNext ∧ 31 < fieldAt b 12 1 then .error 6
            else if kind = 0 then .ok (.timed (fieldAt b 7 2) (Fin.ofNat 32 (fieldAt b 12 1)))
            else if kind = 1 then
              .ok (.step (fieldAt b 7 2) (BitVec.ofNat 8 (fieldAt b 10 1)) (Fin.ofNat 32 (fieldAt b 12 1)))
            else .ok .tail

/-- Judge and read a program entry record field by field in the order of R32; on a failure the field number. -/
def readEntryRecord (b : List Byte) : Except Nat Entry :=
  if 2 < fieldAt b 0 1 then .error 0
  else
    match gateSetOf (fieldAt b 1 2) with
    | none => .error 1
    | some gatesA =>
      match gateSetOf (fieldAt b 3 2) with
      | none => .error 2
      | some gatesB =>
        match flagOf (fieldAt b 5 1) with
        | none => .error 3
        | some guarded =>
          match readEntryEnd b (fieldAt b 0 1) with
          | .error f => .error f
          | .ok ending => .ok ⟨⟨gatesA, gatesB⟩, guarded, ending⟩

/-- The end offset, settle and next of an entry, absent ones absent (R27). -/
def entryOptions : EntryEnd → Option Nat × Option Nat × Option Nat
  | .timed off next => (some off, none, some next.val)
  | .step off settle next => (some off, some settle.toNat, some next.val)
  | .tail => (none, none, none)

/-- The 13 bytes of a program entry (section 12.3). -/
def entryRecordBytes (e : Entry) : List Byte :=
  let o := entryOptions e.ending
  [entryKindByte e.ending] ++ bigEndian 2 e.gates.a.toNat ++ bigEndian 2 e.gates.b.toNat ++ flagByte e.guarded
    ++ optionalField 2 o.1 ++ optionalField 1 o.2.1 ++ optionalField 1 o.2.2

/-- The 5 bytes of a program header (section 12.3). -/
def headerBytes (h : Header) : List Byte := h.period :: h.slots.toList

/-- A program header from its 5 bytes; every value is in the stored range (R34). -/
def readHeader (b : List Byte) : Header :=
  ⟨b.getD 0 0, #v[b.getD 1 0, b.getD 2 0, b.getD 3 0, b.getD 4 0]⟩

/-- Cut n records of the given size from bytes and read each in order; on a failure the record's position and the field number. -/
def readRecords {α : Type} (read : List Byte → Except Nat α) (size : Nat) :
    Nat → Nat → List Byte → Except (Nat × Nat) (List α)
  | 0, _, _ => .ok []
  | n + 1, position, bytes =>
    match read (bytes.take size) with
    | .error f => .error (position, f)
    | .ok e =>
      match readRecords read size n (position + 1) (bytes.drop size) with
      | .error f => .error f
      | .ok es => .ok (e :: es)

/-! ### Config values (section 12.4) -/

/-- The value bytes of a config item. -/
def configValue (c : ConfigItems) : ConfigId → List Byte
  | .stationAddress => bigEndian 6 c.stationAddress.toNat
  | .managementType => bigEndian 2 c.managementType.toNat
  | .trackerEnable => flagByte c.trackerEnable
  | .cadencePort => [portByte c.cadencePort]
  | .depth => bigEndian 1 c.depth
  | .window => bigEndian 1 c.window
  | .holdover => bigEndian 1 c.holdover
  | .spanMin => bigEndian 4 c.spanMin
  | .spanMax => bigEndian 4 c.spanMax
  | .sequencerEnable => flagByte c.sequencerEnable
  | .freeGates p => bigEndian 2 (c.freeGates.get p).toNat
  | .syncOutEnable => flagByte c.syncOutEnable
  | .defaultAction => actionBytes c.defaultAction
  | .quota p q => bigEndian 2 (c.quotas.get p)[q]
  | .noticeEnable => bigEndian 1 c.noticeEnable.toNat

/-- An item's identifier and value as READ_CONFIG returns it (section 12.4). -/
def configItemBytes (c : ConfigItems) (identifier : Nat) : List Byte :=
  match configIdOf identifier with
  | some item => BitVec.ofNat 8 identifier :: configValue c item
  | none => []

/-- Read a tracker item other than the enable from its value bytes: the items with the value stored, or none when the value is outside its
range (R18). -/
def trackerItemWritten (c : ConfigItems) (item : ConfigId) (value : List Byte) : Option ConfigItems :=
  let n := numberOf value
  match item with
  | .cadencePort => (portOf n).map (fun p => { c with cadencePort := p })
  | .depth => if n ∈ [1, 2, 4, 8, 16] then some { c with depth := n } else none
  | .window => if 1 ≤ n ∧ n ≤ 128 then some { c with window := n } else none
  | .holdover => if n ≤ 15 then some { c with holdover := n } else none
  | .spanMin => if 1000 ≤ n ∧ n ≤ c.spanMax then some { c with spanMin := n } else none
  | .spanMax => if c.spanMin ≤ n ∧ n ≤ 125000000 then some { c with spanMax := n } else none
  | _ => none

/-! ### Counter groups (R173, section 12.4) -/

/-- A counter group. -/
inductive Group
  | port (p : Port)
  | queue (p : Port) (q : QueueName)
  | tracker
  | sequencer
  | agent
  deriving DecidableEq, Repr

/-- The group a selector names, if any (section 12.4). -/
def groupOf (n : Nat) : Option Group :=
  if n = 0x00 then some (.port .a)
  else if n = 0x01 then some (.port .b)
  else if 0x10 ≤ n ∧ n ≤ 0x18 then some (.queue .a (Fin.ofNat 9 (n - 0x10)))
  else if 0x20 ≤ n ∧ n ≤ 0x28 then some (.queue .b (Fin.ofNat 9 (n - 0x20)))
  else if n = 0x30 then some .tracker
  else if n = 0x31 then some .sequencer
  else if n = 0x32 then some .agent
  else none

/-- The values of a group in the order of R173. -/
def groupValues (c : Counters) : Group → List Count
  | .port p =>
    let g := c.ports.get p
    [g.goodReceived, g.runts, g.giants, g.checkErrors, g.transmitted, g.linkDiscards, g.guardHolds, g.overruns]
  | .queue p q =>
    let g := (c.queues.get p)[q]
    [g.admitted, g.noRecord, g.poolEmpty, g.quota, g.flushed]
  | .tracker =>
    let g := c.tracker
    [g.acceptedMarks, g.earlyMarks, g.missingMarks, g.runtSpans, g.offPortMarks, g.lockLosses]
  | .sequencer =>
    let g := c.sequencer
    [g.cycles, g.truncations, g.skippedEntries, g.stepTimeouts, g.straySteps, g.settleCancels, g.heldBoundaries]
  | .agent =>
    let g := c.agent
    [g.requestsTaken, g.fifoOverflows, g.shortFrames, g.requestsRefused, g.responsesLost, g.noticesLost]

/-- Set every counter of a group to 0 (R175). -/
def clearGroup (c : Counters) : Group → Counters
  | .port p => { c with ports := c.ports.set p {} }
  | .queue p q => { c with queues := c.queues.modify p (fun v => v.set q {}) }
  | .tracker => { c with tracker := {} }
  | .sequencer => { c with sequencer := {} }
  | .agent => { c with agent := {} }

end Sys2Proof.Machine
end

