-- ==== Sys2Proof/Machine/ProgramStore.lean ====
section
/-! DEFINITION. The Program Store: validation of the staged bank (R28 to R31) and the swap (R165). -/

namespace Sys2Proof.Machine

/-- The reasons of a program fault, in the order of R28. -/
inductive FaultReason
  | badPeriod
  | badStart
  | nonIncreasing
  | noTail
  deriving DecidableEq, Repr

/-- A program fault: reason, start position and entry index (R31). -/
structure ProgramFault where
  reason : FaultReason
  position : Nat
  index : Nat
  deriving DecidableEq, Repr

/-- The encoding of a reason (section 12.4). -/
def faultReasonByte : FaultReason → Byte
  | .badPeriod => 1
  | .badStart => 2
  | .nonIncreasing => 3
  | .noTail => 4

/-- The result of PROGRAM_INVALID (section 12.4). -/
def programFaultBytes (f : ProgramFault) : List Byte :=
  [faultReasonByte f.reason, BitVec.ofNat 8 f.position, BitVec.ofNat 8 f.index]

/-- The stored value of a start slot; positions run from 0 to 3 (R25). -/
def Header.slot (h : Header) (position : Nat) : Byte := h.slots.toList.getD position 0

/-- The start slots of a header from a position on, n of them: the first that names an index of 32 or more (R29). -/
def badStart (h : Header) : Nat → Nat → Option ProgramFault
  | 0, _ => none
  | n + 1, position =>
    if 32 ≤ (h.slot position).toNat then some ⟨.badStart, position, (h.slot position).toNat⟩
    else badStart h n (position + 1)

/-- Whether an end offset does not increase on that of the entry before it (R30). -/
def notIncreasing (previous : Option Nat) (offset : Nat) : Bool :=
  match previous with
  | none => false
  | some before => decide (offset ≤ before)

/-- The walk of R30 from an entry, with the entries it has passed and the end offset before: none when it reaches a TAIL. A walk passes at
most 32 distinct entries, so with a fuel of 33 it ends by a TAIL, a revisit or an offset; the last line is never reached from there. -/
def walkFault (b : Bank) (position : Nat) : Nat → List EntryIndex → Option Nat → EntryIndex → Option ProgramFault
  | 0, _, _, index => some ⟨.noTail, position, index.val⟩
  | fuel + 1, passed, previous, index =>
    if index ∈ passed then some ⟨.noTail, position, index.val⟩
    else
      match (b.entry index).ending with
      | .tail => none
      | .timed offset next =>
        if notIncreasing previous offset then some ⟨.nonIncreasing, position, index.val⟩
        else walkFault b position fuel (index :: passed) (some offset) next
      | .step offset _ next =>
        if notIncreasing previous offset then some ⟨.nonIncreasing, position, index.val⟩
        else walkFault b position fuel (index :: passed) (some offset) next

/-- The entry index a start slot names. -/
def Header.start (h : Header) (position : Nat) : EntryIndex := Fin.ofNat 32 (h.slot position).toNat

/-- The walks from n start positions, from a position on, in order (R30). -/
def badWalk (b : Bank) : Nat → Nat → Option ProgramFault
  | 0, _ => none
  | n + 1, position =>
    match walkFault b position 33 [] none (b.header.start position) with
    | some f => some f
    | none => badWalk b n (position + 1)

/-- Validation of a bank: the period, the start list, the walks; the first fault, or none (R28, R29, R30). -/
def validate (b : Bank) : Option ProgramFault :=
  let period := b.header.period.toNat
  if period < 1 ∨ 4 < period then some ⟨.badPeriod, 0, period⟩
  else
    match badStart b.header period 0 with
    | some f => some f
    | none => badWalk b period 0

/-- A bank is well-formed when all checks pass (R28). -/
def Bank.wellFormed (b : Bank) : Bool := (validate b).isNone

/-- The swap: the roles are exchanged, the pending-commit record becomes absent, and COMMIT_DONE is raised with the occasion and the cycle
number the event leaves (R165, R171). -/
def swapBanks (occasion : Occasion) (cycle : Count) (s : State) : State :=
  raiseNotice (.commitDone s.programs.staged occasion) cycle
    { s with programs := { s.programs with active := s.programs.staged, commitPending := false } }

/-- Apply a pending commit, if present (R166, R167). -/
def applyPendingCommit (occasion : Occasion) (cycle : Count) (s : State) : State :=
  if s.programs.commitPending then swapBanks occasion cycle s else s

end Sys2Proof.Machine
end

