-- ==== Sys2Proof/Machine/Sequencer.lean ====
section
/-! DEFINITION. The Phase Sequencer (chapter 3): the walk, boundaries, step marks, lock loss, HALT and RESUME, enable writes, and the
meanings of ENTRY_DEADLINE, SETTLE_DUE and SYNC_OUT_PULSE_END. -/

namespace Sys2Proof.Machine

/-! ### Entering an entry -/

/-- A fraction f of the span: floor(f × S / 1024) ticks (section 5 of the scope file). -/
def spanFraction (f span : Nat) : Nat := f * span / 1024

/-- The end time of an entry in a cycle with origin T and span S; T + S stands in for a TAIL's (R27, R47). -/
def entryEndTime (origin : Time) (span : Nat) : EntryEnd → Time
  | .timed off _ => Time.plus origin (spanFraction off span)
  | .step off _ _ => Time.plus origin (spanFraction off span)
  | .tail => Time.plus origin span

/-- The examination of R47 from a target at moment m: the entry that becomes current, and how many were skipped. In a well-formed bank a
TAIL is reached within 32 entries (R24, log entry 12). -/
def examine (b : Bank) (origin : Time) (span : Nat) (m : Time) : Nat → EntryIndex → Nat → EntryIndex × Nat
  | 0, i, skipped => (i, skipped)
  | fuel + 1, i, skipped =>
    match (b.entry i).ending with
    | .tail => (i, skipped)
    | .timed off next =>
      if Time.after (Time.plus origin (spanFraction off span)) m then (i, skipped)
      else examine b origin span m fuel next (skipped + 1)
    | .step off _ next =>
      if Time.after (Time.plus origin (spanFraction off span)) m then (i, skipped)
      else examine b origin span m fuel next (skipped + 1)

/-- Count n more. -/
def Count.upBy : Nat → Count → Count
  | 0, c => c
  | n + 1, c => Count.upBy n (Count.up c)

/-- The deadline an entry starts as it becomes current: none for a TAIL (R47). -/
def entryDeadlineOf (ending : EntryEnd) (endTime : Time) : Option Time :=
  match ending with
  | .timed _ _ => some endTime
  | .step _ _ _ => some endTime
  | .tail => none

/-- Enter an entry from a target index at moment m (R47). The presentation is delivered apart. -/
def enterEntry (target : EntryIndex) (m : Time) (s : State) : State :=
  let seq := s.sequencer
  let bank := s.programs.activeBank
  let found := examine bank seq.origin seq.span m 32 target 0
  let ending := (bank.entry found.1).ending
  let endTime := entryEndTime seq.origin seq.span ending
  { s with sequencer := { seq with
      current := found.1
      endTime := endTime
      stepSeen := false
      pending := none
      settle := none
      deadline := entryDeadlineOf ending endTime } }.countSequencer
    (fun c => { c with skippedEntries := Count.upBy found.2 c.skippedEntries })

/-- The current entry: the active bank's at the current index. -/
def State.currentEntry (s : State) : Entry := s.programs.activeBank.entry s.sequencer.current

/-- What RUNNING presents: the current entry's gate sets, with E as the guard limit when its guard is yes (R39). -/
def runningPresentation (s : State) : Pair Presentation :=
  let e := s.currentEntry
  let limit := if e.guarded then some s.sequencer.endTime else none
  ⟨⟨e.gates.a, limit⟩, ⟨e.gates.b, limit⟩⟩

/-- Deliver what RUNNING presents (R40). -/
def presentRunning (s : State) : State := presentBoth (runningPresentation s) s

/-- Enter the next entry in RUNNING and deliver the gate changes. -/
def moveTo (target : EntryIndex) (m : Time) (s : State) : State := presentRunning (enterEntry target m s)

/-! ### Leaving the walk -/

/-- Cancel the entry deadline and the settle due, clear the step-seen flag, and discard a pending transition with one settle cancel
counted (R52). -/
def leaveEntry (s : State) : State :=
  let s' := { s with sequencer := { s.sequencer with
    deadline := none, settle := none, stepSeen := false, pending := none } }
  if s.sequencer.pending.isSome then
    s'.countSequencer (fun c => { c with settleCancels := Count.up c.settleCancels })
  else s'

/-- The sequencer's part in a lock loss (R59): from RUNNING, HALTED or REJOINING to FREE with cycle number 0, the free gate sets presented,
and a pending commit applied after it all (R167). -/
def sequencerLockLoss (s : State) : State :=
  if s.sequencer.state.follows then
    let s1 := leaveEntry s
    let s2 := { s1 with sequencer := { s1.sequencer with state := .free, cycle := 0 } }
    applyPendingCommit .freeEntry 0 (presentBoth (freePresentation s2) s2)
  else s

/-- The sequencer enable is written off (R42). The cycle number keeps its value. -/
def sequencerDisable (s : State) : State :=
  match s.sequencer.state with
  | .stopped => s
  | .free => { s with sequencer := { s.sequencer with state := .stopped } }
  | .running | .halted | .rejoining =>
    let s1 := leaveEntry s
    let s2 := { s1 with sequencer := { s1.sequencer with state := .stopped } }
    applyPendingCommit .stoppedEntry s2.sequencer.cycle (presentBoth (freePresentation s2) s2)

/-- The sequencer enable is written on (R42). -/
def sequencerEnable (s : State) : State :=
  match s.sequencer.state with
  | .stopped => { s with sequencer := { s.sequencer with state := .free } }
  | .free | .running | .halted | .rejoining => s

/-- A free gate set has been written: STOPPED and FREE present it at once (R43). -/
def freeGatesWritten (s : State) : State :=
  match s.sequencer.state with
  | .stopped | .free => presentBoth (freePresentation s) s
  | .running | .halted | .rejoining => s

/-- HALT in RUNNING: the gate sets are frozen without a guard limit (R56). -/
def sequencerHalt (s : State) : State :=
  let s1 := leaveEntry s
  let s2 := { s1 with sequencer := { s1.sequencer with state := .halted } }
  presentBoth ⟨⟨s2.sequencer.presentation.a.gates, none⟩, ⟨s2.sequencer.presentation.b.gates, none⟩⟩ s2

/-! ### Boundaries -/

/-- The cycle number of the cycle that a boundary starts (R46, step 2). -/
def nextCycle (q : Sequencer) : Count :=
  match q.state with
  | .free => 0
  | .stopped | .running | .halted | .rejoining => q.cycle + 1

/-- The cycle number as a boundary event leaves it (R19, R44). -/
def cycleAfterBoundary (q : Sequencer) : Count :=
  match q.state with
  | .stopped | .halted => q.cycle
  | .free | .running | .rejoining => nextCycle q

/-- The cycle number as a lock loss leaves it (R59). -/
def cycleAfterLockLoss (q : Sequencer) : Count := if q.state.follows then 0 else q.cycle

/-- Start a SYNC_OUT pulse, or restart the pulse-end wait of one that is running, while the item is on (R60). -/
def startPulse (s : State) : State :=
  if s.config.syncOutEnable then
    { s with
      pins := { s.pins with syncOut := true }
      sequencer := { s.sequencer with pulseEnd := some (Time.plus s.time Config.syncPulseTicks) } }
  else s

/-- End the running cycle at a boundary (R45). -/
def endCycle (s : State) : State :=
  let s1 := leaveEntry s
  match s.currentEntry.ending with
  | .timed _ _ => s1.countSequencer (fun c => { c with truncations := Count.up c.truncations })
  | .step _ _ _ => s1.countSequencer (fun c => { c with truncations := Count.up c.truncations })
  | .tail => s1

/-- The start entry of a cycle: the start list of the active bank at position (cycle number mod P) (R25, R46). -/
def startEntry (b : Bank) (cycle : Count) : EntryIndex :=
  b.header.start (cycle.toNat % b.header.period.toNat)

/-- Steps 1 to 3 of a cycle start (R46): a pending commit is applied, the cycle number, T and S are set. -/
def cycleBegun (origin : Time) (ref : Nat) (s : State) : State :=
  let cycle := nextCycle s.sequencer
  let s1 := applyPendingCommit .cycleStart cycle s
  { s1 with sequencer := { s1.sequencer with cycle := cycle, origin := origin, span := ref } }

/-- Steps 4 and 5 of a cycle start (R46): the start entry is entered at the boundary's moment. -/
def cycleEntered (origin : Time) (ref : Nat) (s : State) : State :=
  let s1 := cycleBegun origin ref s
  enterEntry (startEntry s1.programs.activeBank s1.sequencer.cycle) s1.time s1

/-- Step 6 of a cycle start (R46): the state is RUNNING, and the cycle is counted. -/
def cycleRunning (origin : Time) (ref : Nat) (s : State) : State :=
  let s1 := cycleEntered origin ref s
  { s1 with sequencer := { s1.sequencer with state := .running } }.countSequencer
    (fun c => { c with cycles := Count.up c.cycles })

/-- Start a cycle (R46): steps 1 to 6, then the gate changes and the pulse. -/
def startCycle (origin : Time) (ref : Nat) (s : State) : State :=
  startPulse (presentRunning (cycleRunning origin ref s))

/-- The sequencer takes a boundary by its state (R44). -/
def takeBoundary (origin : Time) (ref : Nat) (s : State) : State :=
  match s.sequencer.state with
  | .stopped => s
  | .free => startCycle origin ref s
  | .running => startCycle origin ref (endCycle s)
  | .halted => s.countSequencer (fun c => { c with heldBoundaries := Count.up c.heldBoundaries })
  | .rejoining => startCycle origin ref s

/-! ### Step marks -/

/-- A stray step mark is counted and changes nothing else (R53). -/
def strayStep (s : State) : State :=
  s.countSequencer (fun c => { c with straySteps := Count.up c.straySteps })

/-- A step mark in a current STEP entry with no pending transition (R51). -/
def stepInEntry (t : Time) (settle : BitVec 8) (next : EntryIndex) (s : State) : State :=
  let delay := spanFraction settle.toNat s.sequencer.span
  if delay = 0 then moveTo next t s
  else if Time.after s.sequencer.endTime (Time.plus t delay) then
    { s with sequencer := { s.sequencer with
        pending := some ⟨next, Time.plus t delay⟩, settle := some (Time.plus t delay) } }
  else { s with sequencer := { s.sequencer with stepSeen := true } }

/-- The sequencer takes a step mark with arrival time t (R51, R53). -/
def takeStepMark (t : Time) (s : State) : State :=
  match s.sequencer.state with
  | .running =>
    match s.currentEntry.ending with
    | .step _ settle next => if s.sequencer.pending.isSome then strayStep s else stepInEntry t settle next s
    | .timed _ _ => strayStep s
    | .tail => strayStep s
  | .stopped | .free | .halted | .rejoining => strayStep s

/-! ### The meanings of the sequencer's expiries -/

/-- The entry deadline is taken in RUNNING (R49): a STEP entry that saw no step mark counts a timeout, and the next entry is entered at E. -/
def entryDeadlineTaken (s : State) : State :=
  match s.currentEntry.ending with
  | .timed _ next => moveTo next s.time s
  | .step _ _ next =>
    moveTo next s.time
      (if s.sequencer.pending.isNone && !s.sequencer.stepSeen then
        s.countSequencer (fun c => { c with stepTimeouts := Count.up c.stepTimeouts })
      else s)
  | .tail => { s with sequencer := { s.sequencer with deadline := none } }

/-- ENTRY_DEADLINE (R49). An expiry with no wait due delivers nothing (R93). -/
def execEntryDeadline (s : State) : Host.Outcome State Fault Refusal :=
  .next (outsideReset s fun s =>
    if s.sequencer.state = .running ∧ waitDue s.sequencer.deadline s then entryDeadlineTaken s else s)

/-- The settle due is taken in RUNNING (R52): the pending transition is made at the due time. -/
def settleTaken (s : State) : State :=
  match s.sequencer.pending with
  | some t => moveTo t.target s.time s
  | none => { s with sequencer := { s.sequencer with settle := none } }

/-- SETTLE_DUE (R52). -/
def execSettleDue (s : State) : Host.Outcome State Fault Refusal :=
  .next (outsideReset s fun s =>
    if s.sequencer.state = .running ∧ waitDue s.sequencer.settle s then settleTaken s else s)

/-- SYNC_OUT_PULSE_END: the output goes low (R60). -/
def execSyncOutPulseEnd (s : State) : Host.Outcome State Fault Refusal :=
  .next (outsideReset s fun s =>
    if waitDue s.sequencer.pulseEnd s then
      { s with
        pins := { s.pins with syncOut := false }
        sequencer := { s.sequencer with pulseEnd := none } }
    else s)

end Sys2Proof.Machine
end

