-- ==== Sys2Proof/Machine/Tracker.lean ====
section
/-! DEFINITION. The Cadence Tracker (chapter 1): spans, marks, the window, lock loss, and the meanings of ACQUIRE_TIMEOUT and WINDOW_CLOSE. -/

namespace Sys2Proof.Machine

/-- The tracker in OFF or SEEKING: the history is cleared, ref undefined, m 0, the flag clear, the wait cancelled; B is kept (R1, R2, R4). -/
def Tracker.cleared (t : Tracker) (state : TrackerState) : Tracker :=
  ⟨state, [], 0, none, t.boundary, 0, false, none⟩

/-- Set the tracker. -/
def State.setTracker (s : State) (t : Tracker) : State := { s with tracker := t }

/-- Drive the LOCK pin (R22). -/
def State.setLock (s : State) (high : Bool) : State := { s with pins := { s.pins with lock := high } }

/-- Capture a span: to the front of the history, which holds at most 16; the count is held at 16 (R2). -/
def Tracker.capture (t : Tracker) (span : Nat) : Tracker :=
  { t with
    history := (span :: t.history).take Config.historyLength
    captures := min Config.historyLength (t.captures + 1) }

/-- The floor of the mean of the newest n spans (R3). -/
def meanOfNewest (n : Nat) (history : List Nat) : Nat := (history.take n).sum / n

/-- The half-width of the window: w = floor(ref × W / 256) (R10). -/
def halfWidth (ref window : Nat) : Nat := ref * window / 256

/-- The window close for a boundary B and a ref: due at B + ref + w (R10). -/
def windowWait (boundary : Time) (ref window : Nat) : Option TrackerWait :=
  some (.windowClose (Time.plus boundary (ref + halfWidth ref window)))

/-- Where the tracker goes at a lock loss: OFF when it is disabled, else SEEKING (R16). -/
def LossCause.stateAfter : LossCause → TrackerState
  | .missing => .seeking
  | .disabled => .off
  | .linkDown => .seeking
  | .trafficReset => .seeking

/-- Lock loss (R16): the tracker is cleared, the loss counted, LOCK_LOST raised and LOCK driven low, and in the same event the sequencer
leaves the program (R59). -/
def lockLoss (cause : LossCause) (s : State) : State :=
  let s1 := (s.setTracker (s.tracker.cleared cause.stateAfter)).countTracker
    (fun c => { c with lockLosses := Count.up c.lockLosses })
  let s2 := (raiseNotice (.lockLost cause) (cycleAfterLockLoss s1.sequencer) s1).setLock false
  sequencerLockLoss s2

/-- Count an accepted mark (R20). -/
def countAccepted (s : State) : State :=
  s.countTracker (fun c => { c with acceptedMarks := Count.up c.acceptedMarks })

/-- A cycle mark in SEEKING is the first of an acquisition (R7). -/
def firstMark (t : Time) (s : State) : State :=
  countAccepted (s.setTracker { s.tracker with
    state := .acquiring
    boundary := t
    synthesised := false
    wait := some (.acquireTimeout (Time.plus t s.config.spanMax)) })

/-- The tracker locks in ACQUIRING at a mark with arrival time t (R8), and the boundary is delivered (R15). -/
def acquireLock (t : Time) (s : State) : State :=
  let ref := meanOfNewest s.config.depth s.tracker.history
  let s1 := (s.setTracker { s.tracker with
    state := .locked
    ref := some ref
    missing := 0
    synthesised := false
    wait := windowWait t ref s.config.window }).setLock true
  takeBoundary t ref (raiseNotice (.lockAcquired ref) (cycleAfterBoundary s1.sequencer) s1)

/-- A cycle mark in ACQUIRING: a runt span changes nothing; another is captured, and the N-th capture locks (R8, log entry 19). -/
def markAcquiring (t : Time) (s : State) : State :=
  let d := Time.since t s.tracker.boundary
  if d < s.config.spanMin then s.countTracker (fun c => { c with runtSpans := Count.up c.runtSpans })
  else
    let s1 := countAccepted (s.setTracker { s.tracker.capture d with boundary := t })
    if s.config.depth ≤ s1.tracker.captures then acquireLock t s1
    else s1.setTracker { s1.tracker with wait := some (.acquireTimeout (Time.plus t s.config.spanMax)) }

/-- The tracker after the span of an accepted mark is examined: captured with a new ref when the flag is clear and the span lies within the
limits, else unchanged (R11). -/
def examineSpan (t : Time) (s : State) : Tracker :=
  let d := Time.since t s.tracker.boundary
  if !s.tracker.synthesised && decide (s.config.spanMin ≤ d ∧ d ≤ s.config.spanMax) then
    let c := s.tracker.capture d
    { c with ref := some (meanOfNewest s.config.depth c.history) }
  else s.tracker

/-- A mark accepted in LOCKED or HOLDOVER (R11). -/
def acceptMark (t : Time) (ref : Nat) (s : State) : State :=
  let tr := examineSpan t s
  let ref' := tr.ref.getD ref
  let s1 := countAccepted (s.setTracker { tr with
    state := .locked
    boundary := t
    synthesised := false
    missing := 0
    wait := windowWait t ref' s.config.window })
  let s2 := if s.tracker.state = .holdover then
      raiseNotice (.lockRegained ref') (cycleAfterBoundary s1.sequencer) s1
    else s1
  takeBoundary t ref' s2

/-- A cycle mark in LOCKED or HOLDOVER: early before the window opens at B + ref - w, accepted from there to B + ref + w, both ends
included (R10, R11). After the close no mark can come before the close is taken (R93, log entry 13). -/
def markInWindow (t : Time) (s : State) : State :=
  match s.tracker.ref with
  | none => s
  | some ref =>
    let w := halfWidth ref s.config.window
    if Time.after (Time.plus s.tracker.boundary (ref - w)) t then
      s.countTracker (fun c => { c with earlyMarks := Count.up c.earlyMarks })
    else if Time.after t (Time.plus s.tracker.boundary (ref + w)) then s
    else acceptMark t ref s

/-- The tracker takes a cycle mark with arrival time t by its state (section 1.2, R7, R8, R10, R11). -/
def takeCycleMark (t : Time) (s : State) : State :=
  match s.tracker.state with
  | .off => s
  | .seeking => firstMark t s
  | .acquiring => markAcquiring t s
  | .locked => markInWindow t s
  | .holdover => markInWindow t s

/-- Link down on the cadence port and RESET TRAFFIC return the tracker to SEEKING (R17). -/
def trackerDisturbed (cause : LossCause) (s : State) : State :=
  match s.tracker.state with
  | .off => s
  | .seeking => s
  | .acquiring => s.setTracker (s.tracker.cleared .seeking)
  | .locked => lockLoss cause s
  | .holdover => lockLoss cause s

/-- The tracker enable is written on (R5). -/
def trackerEnable (s : State) : State :=
  match s.tracker.state with
  | .off => s.setTracker (s.tracker.cleared .seeking)
  | .seeking | .acquiring | .locked | .holdover => s

/-- The tracker enable is written off (R6). -/
def trackerDisable (s : State) : State :=
  match s.tracker.state with
  | .off => s
  | .seeking => s.setTracker (s.tracker.cleared .off)
  | .acquiring => s.setTracker (s.tracker.cleared .off)
  | .locked => lockLoss .disabled s
  | .holdover => lockLoss .disabled s

/-! ### The meanings of the tracker's expiries -/

/-- ACQUIRE_TIMEOUT: in ACQUIRING the history is cleared and the tracker returns to SEEKING without a notice or a count (R9). -/
def execAcquireTimeout (s : State) : Host.Outcome State Fault Refusal :=
  .next (outsideReset s fun s =>
    if s.tracker.state = .acquiring ∧ s.tracker.wait = some (.acquireTimeout s.time) then
      s.setTracker (s.tracker.cleared .seeking)
    else s)

/-- A missing mark within the holdover limit: the boundary is synthesised at B + ref (R12). -/
def carryCycle (ref : Nat) (s : State) : State :=
  let b := Time.plus s.tracker.boundary ref
  let s1 := s.setTracker { s.tracker with
    state := .holdover
    boundary := b
    missing := s.tracker.missing + 1
    synthesised := true
    wait := windowWait b ref s.config.window }
  let s2 := if s.tracker.state = .locked then
      raiseNotice (.holdoverEntered b) (cycleAfterBoundary s1.sequencer) s1
    else s1
  takeBoundary b ref s2

/-- The window close is taken in LOCKED or HOLDOVER (R12, R13). -/
def windowCloseTaken (ref : Nat) (s : State) : State :=
  let s1 := s.countTracker (fun c => { c with missingMarks := Count.up c.missingMarks })
  if s.tracker.missing + 1 ≤ s.config.holdover then carryCycle ref s1 else lockLoss .missing s1

/-- WINDOW_CLOSE (R12, R13). -/
def execWindowClose (s : State) : Host.Outcome State Fault Refusal :=
  .next (outsideReset s fun s =>
    if s.tracker.state.isLocked ∧ s.tracker.wait = some (.windowClose s.time) then
      match s.tracker.ref with
      | some ref => windowCloseTaken ref s
      | none => s
    else s)

end Sys2Proof.Machine
end

