-- ==== Sys2Proof/Machine/Ports.lean ====
section
/-! DEFINITION. Line ports and classification (chapters 5 and 6), and the meanings of LINK_UP, LINK_DOWN, RECEPTION_START,
RECEPTION_COMPLETION and TRANSMISSION_COMPLETION. -/

namespace Sys2Proof.Machine

/-! ### Classification -/

/-- A management frame: addressed to the station address with the management type (R99). -/
def isManagement (s : State) (f : FrameFields) : Bool :=
  f.destination == s.config.stationAddress && f.etherType == s.config.managementType

/-- The request slot of a management frame (R100). -/
def slotOf (p : Port) (bytes : List Byte) (s : State) : Slot :=
  ⟨bytes, bytes.length, (frameFields bytes).source, p, s.time⟩

/-- Hand a management frame to the request FIFO: it joins the back, or is dropped and counted at a full FIFO (R100). -/
def pushRequest (slot : Slot) (s : State) : State :=
  if s.agent.fifo.length < Config.fifoCapacity then
    { s with agent := { s.agent with fifo := s.agent.fifo ++ [slot] } }
  else s.countAgent (fun c => { c with fifoOverflows := Count.up c.fifoOverflows })

/-- An ingress port matches a receiving port (R102). -/
def Ingress.admits : Ingress → Port → Bool
  | .either, _ => true
  | .portA, .a => true
  | .portA, .b => false
  | .portB, .a => false
  | .portB, .b => true

/-- The bit of a priority set for a frame: its tag priority, or "untagged" (R102). -/
def priorityBit (f : FrameFields) : Nat :=
  match f.tag with
  | some t => t.1.val
  | none => 8

/-- A VLAN id condition: absent, or the frame is tagged with that id (R102). -/
def vlanMatches (vlan : Option (BitVec 12)) (f : FrameFields) : Bool :=
  match vlan, f.tag with
  | none, _ => true
  | some v, some t => v == t.2
  | some _, none => false

/-- A type condition: absent, or the frame's type (R102). -/
def typeMatches (etherType : Option Word16) (f : FrameFields) : Bool :=
  match etherType with
  | none => true
  | some t => t == f.etherType

/-- A frame received on a port matches an entry (R102). -/
def MatchEntry.matches (e : MatchEntry) (p : Port) (f : FrameFields) : Bool :=
  e.valid && e.ingress.admits p && ((f.destination ^^^ e.value) &&& e.mask) == 0
    && typeMatches e.etherType f && e.priorities.getLsbD (priorityBit f) && vlanMatches e.vlan f

/-- A Match Table entry. -/
def Classifier.entry (c : Classifier) (i : MatchIndex) : MatchEntry := c.entries[i]

/-- A hit count. -/
def Classifier.hit (c : Classifier) (i : MatchIndex) : Count := c.hits[i]

/-- The entry that governs a frame: the first valid entry it matches, in index order (R103). -/
def governing (c : Classifier) (p : Port) (f : FrameFields) : Option MatchIndex :=
  (List.finRange 64).find? (fun i => (c.entry i).matches p f)

/-- Count a hit of an entry (R109). -/
def countHit (i : MatchIndex) (s : State) : State :=
  { s with classifier := { s.classifier with
      hits := s.classifier.hits.set i (Count.up (s.classifier.hit i)) } }

/-- The class of a frame (R106). -/
def frameClass (c : ClassChoice) (f : FrameFields) : QueueName :=
  match c with
  | .fixed k => Fin.ofNat 9 k.val
  | .fromPriority =>
    match f.tag with
    | some t => Fin.ofNat 9 t.1.val
    | none => 0

/-- A frame with a mark: delivered from the cadence port to the tracker or the sequencer, counted as off-port from the other (R108). -/
def deliverMark (kind : MarkKind) (p : Port) (s : State) : State :=
  match kind with
  | .noMark => s
  | .cycle =>
    if p = s.config.cadencePort then takeCycleMark s.time s
    else s.countTracker (fun c => { c with offPortMarks := Count.up c.offPortMarks })
  | .step =>
    if p = s.config.cadencePort then takeStepMark s.time s
    else s.countTracker (fun c => { c with offPortMarks := Count.up c.offPortMarks })

/-- The action that governs an ordinary frame, with the hit counted when it is an entry's (R103, R104, R105 steps 1 and 2). -/
def selectAction (p : Port) (f : FrameFields) (s : State) : Action × State :=
  match governing s.classifier p f with
  | some i => ((s.classifier.entry i).action, countHit i s)
  | none => (s.config.defaultAction, s)

/-- Classify an ordinary frame (R105): selection, hit, class, mark, disposition. -/
def classifyOrdinary (p : Port) (bytes : List Byte) (s : State) : State :=
  let f := frameFields bytes
  let chosen := selectAction p f s
  let s1 := deliverMark chosen.1.mark p chosen.2
  match chosen.1.disposition with
  | .forward => offerForwarded p.opposite (frameClass chosen.1.classChoice f) bytes s1
  | .discard => s1

/-- Classify a good frame (R99, R100, R105). -/
def classify (p : Port) (bytes : List Byte) (s : State) : State :=
  if isManagement s (frameFields bytes) then pushRequest (slotOf p bytes s) s else classifyOrdinary p bytes s

/-! ### Reception -/

/-- Release the staging buffer: the receiver becomes idle (R85, R86). -/
def releaseReceiver (p : Port) (s : State) : State :=
  s.setPort p { s.port p with receiver := Receiver.idle }

/-- The bytes of the frame have arrived: counted, the first 1,536 of them stored, and a receive error kept in the damaged flag (R84). -/
def stageBytes (p : Port) (frame : List Byte) (receiveError : Bool) (s : State) : State :=
  s.setPort p { s.port p with receiver :=
    ⟨true, frame.take Config.frameMax, frame.length, (s.port p).receiver.damaged || receiveError⟩ }

/-- Judge the frame in the staging buffer: runt, giant, check sequence, in this order; a good frame is counted and classified (R85, R86). -/
def judgeFrame (p : Port) (s : State) : State :=
  let r := (s.port p).receiver
  if r.received < Config.frameMin then s.countPort p (fun c => { c with runts := Count.up c.runts })
  else if Config.frameMax < r.received then s.countPort p (fun c => { c with giants := Count.up c.giants })
  else if r.damaged || !checkPasses r.staging then
    s.countPort p (fun c => { c with checkErrors := Count.up c.checkErrors })
  else classify p r.staging (s.countPort p (fun c => { c with goodReceived := Count.up c.goodReceived }))

/-- RECEPTION_START: on a port whose link is UP and whose receiver is idle, a reception begins (R84). -/
def execReceptionStart (p : Port) (s : State) : Host.Outcome State Fault Refusal :=
  .next (outsideReset s fun s =>
    if (s.port p).link = .up ∧ (s.port p).receiver.receiving = false then
      s.setPort p { s.port p with receiver := ⟨true, [], 0, false⟩ }
    else s)

/-- RECEPTION_COMPLETION of the reception in progress; with none in progress it finds nothing to complete (R85, R86, R87). -/
def execReceptionCompletion (p : Port) (frame : List Byte) (receiveError : Bool) (s : State) :
    Host.Outcome State Fault Refusal :=
  .next (outsideReset s fun s =>
    if (s.port p).receiver.receiving then releaseReceiver p (judgeFrame p (stageBytes p frame receiveError s))
    else s)

/-! ### Transmission completion -/

/-- The completion of the in-flight frame (R74): counted, freed, idle; the notice head is offered when the port is the owner port of an open
session; the scheduler evaluates. -/
def completeTransmission (p : Port) (f : InFlight) (s : State) : State :=
  let s1 := (freeRecord f.record
    (s.countPort p (fun c => { c with transmitted := Count.up c.transmitted }))).setInFlight p none
  let s2 := if s1.agent.session.isOpen ∧ s1.agent.session.ownerPort = p then offerAllNotices s1 else s1
  evaluate p s2

/-- TRANSMISSION_COMPLETION at the completion due of the port's in-flight frame (R74). -/
def execTransmissionCompletion (p : Port) (s : State) : Host.Outcome State Fault Refusal :=
  .next (outsideReset s fun s =>
    match (s.sched p).inFlight with
    | some f => if f.due = s.time then completeTransmission p f s else s
    | none => s)

/-! ### Link events -/

/-- Set the PHY's link indication of a port (R88). -/
def State.setPhy (s : State) (p : Port) (l : Link) : State :=
  { s with pins := { s.pins with phy := s.pins.phy.set p l } }

/-- Set the link state of a port (R88). -/
def State.setLink (s : State) (p : Port) (l : Link) : State := s.setPort p { s.port p with link := l }

/-- A link up event (R90): the link state is UP, the scheduler evaluates, LINK_CHANGE is raised. -/
def linkUpEvent (p : Port) (s : State) : State :=
  let s1 := evaluate p (s.setLink p .up)
  raiseNotice (.linkChange p .up) s1.sequencer.cycle s1

/-- The in-flight frame is aborted by link down and counted as a link discard (R75, R89). -/
def discardInFlight (p : Port) (s : State) : State :=
  if (s.sched p).inFlight.isSome then
    abortTransmission p (s.countPort p (fun c => { c with linkDiscards := Count.up c.linkDiscards }))
  else s

/-- A link down event (R89): receiver, transmitter, queues, tracker, notice, in this order. -/
def linkDownEvent (p : Port) (s : State) : State :=
  let s1 := releaseReceiver p (s.setLink p .down)
  let s2 := flushPort p (discardInFlight p s1)
  let s3 := if p = s2.config.cadencePort then trackerDisturbed .linkDown s2 else s2
  raiseNotice (.linkChange p .down) s3.sequencer.cycle s3

/-- LINK_UP: the indication changes to UP; a report equal to the link state held is no event (R88, R90). -/
def execLinkUp (p : Port) (s : State) : Host.Outcome State Fault Refusal :=
  .next (outsideReset (s.setPhy p .up) fun s => if (s.port p).link = .up then s else linkUpEvent p s)

/-- LINK_DOWN: the indication changes to DOWN; a report equal to the link state held is no event (R88, R89). -/
def execLinkDown (p : Port) (s : State) : Host.Outcome State Fault Refusal :=
  .next (outsideReset (s.setPhy p .down) fun s => if (s.port p).link = .down then s else linkDownEvent p s)

end Sys2Proof.Machine
end

