-- ==== Sys2Proof/Machine/Reset.lean ====
section
/-! DEFINITION. The reset pin (R95) and what RESET FULL shares with it (R147): the meanings of RESET_N_ASSERT and RESET_N_RELEASE. -/

namespace Sys2Proof.Machine

/-- A port samples its PHY link indication: UP is a link up event (R88). -/
def sampleLink (p : Port) (s : State) : State :=
  match s.pins.phy.get p with
  | .up => linkUpEvent p s
  | .down => s

/-- Both ports sample their indications. -/
def sampleLinks (s : State) : State := sampleLink .b (sampleLink .a s)

/-- RESET_N_ASSERT: every item of every block takes its power-on value, the outputs are low, part time stands at 0 and does not count; the
latched straps stand until the next release (R82, R94, R95). -/
def execResetNAssert (s : State) : Host.Outcome State Fault Refusal :=
  .next (State.powerOn s.straps false s.pins.phy s.tieCount s.pending)

/-- RESET_N_RELEASE: the straps are sampled and latched, part time starts at 0, and each port samples its link indication (R82, R94, R95).
With RESET_N already high there is nothing to release. -/
def execResetNRelease (straps : Straps) (s : State) : Host.Outcome State Fault Refusal :=
  .next (if s.inReset then sampleLinks (State.powerOn straps true s.pins.phy s.tieCount s.pending) else s)

/-- The effects of RESET FULL: those of RESET_N without sampling the straps; at the end each port samples its link indication (R147). -/
def fullReset (s : State) : State :=
  sampleLinks (State.powerOn s.straps true s.pins.phy s.tieCount s.pending)

end Sys2Proof.Machine
end

