-- ==== Sys2Proof/Machine/Agent.lean ====
section
/-! DEFINITION. The request path of the Management Agent (chapter 8): service moments, header checks, owner and sequence checks, the response;
and the meanings of SHORT_FRAME_DROPPED and BAD_CODE. -/

namespace Sys2Proof.Machine

/-! ### Answers and responses -/

/-- What a response says: its status, its flags and its result (R138). -/
structure Answer where
  status : Status
  flags : Word16
  result : List Byte
  deriving DecidableEq, Repr

/-- OK with a result. -/
def Answer.okay (result : List Byte) : Answer := ⟨.ok, 0, result⟩

/-- A refusal without details. -/
def Answer.refuse (status : Status) : Answer := ⟨status, 0, []⟩

/-- The details of BAD_ARGUMENT (section 12.4). -/
inductive ArgumentDetail
  | badRange
  | badField (index field : Nat)
  | badLength
  | badValue
  deriving DecidableEq, Repr

/-- The result bytes of BAD_ARGUMENT: detail, entry index, field number (section 12.4, R184). -/
def argumentDetailBytes : ArgumentDetail → List Byte
  | .badRange => [1, 0, 0]
  | .badField index field => [2, BitVec.ofNat 8 index, BitVec.ofNat 8 field]
  | .badLength => [3, 0, 0]
  | .badValue => [4, 0, 0]

/-- BAD_ARGUMENT with its detail (R184). -/
def Answer.badArgument (d : ArgumentDetail) : Answer := ⟨.badArgument, 0, argumentDetailBytes d⟩

/-- What executing a request gives: an answer; an answer whose request ends the session once it is recorded (R155); or, for RESET FULL, no
response (R147). -/
inductive Verdict
  | answer (s : State) (a : Answer)
  | closing (s : State) (a : Answer)
  | silent (s : State)

/-- The session number a response carries: the current one, or 0 while the session is NONE (R138). -/
def responseSession (s : State) : Word16 := if s.agent.session.isOpen then s.agent.session.number else 0

/-- The response frame to a request (R138, section 12.1). -/
def responseFrame (r : Request) (a : Answer) (s : State) : List Byte :=
  closeFrame
    (bigEndian 6 r.source.toNat ++ bigEndian 6 s.config.stationAddress.toNat
      ++ bigEndian 2 s.config.managementType.toNat
      ++ [1, r.code] ++ bigEndian 2 (12 + a.result.length) ++ bigEndian 2 r.sequence.toNat
      ++ bigEndian 2 (responseSession s).toNat ++ bigEndian 2 a.flags.toNat ++ [a.status.byte, 0] ++ a.result)

/-- The counts of an answered request, after the response is offered (R132 stage 5, R149). -/
def countAnswered (a : Answer) (s : State) : State :=
  s.countAgent (fun c =>
    { c with
      requestsTaken := Count.up c.requestsTaken
      requestsRefused := if a.status = .ok then c.requestsRefused else Count.up c.requestsRefused })

/-- Build the response, offer it to the M queue of the arrival port, and count (R138, R139, R149). -/
def respond (r : Request) (a : Answer) (s : State) : State :=
  countAnswered a (offerResponse r.port (responseFrame r a s) s)

/-! ### Session end and lease -/

/-- Replace the session record. -/
def State.setSession (s : State) (v : Session) : State := { s with agent := { s.agent with session := v } }

/-- A session end (R155, R180): NONE, the lease wait cancelled, the replay record absent, the notice queue emptied, the loss flag cleared. -/
def endSession (s : State) : State :=
  { s with
    agent := { s.agent with
      session := { s.agent.session with isOpen := false, leaseWait := none }
      replay := none }
    notices := { s.notices with records := [], loss := false } }

/-- The lease expiry time of a lease of the given length started now (R151). -/
def leaseDue (ms : Nat) (s : State) : Time := Time.plus s.time (ms * Config.ticksPerMs)

/-- Start or restart the lease with the length in force (R151). -/
def restartLease (s : State) : State :=
  let due := leaseDue s.agent.session.leaseMs s
  s.setSession { s.agent.session with leaseExpiry := due, leaseWait := some due }

/-! ### Checks -/

/-- Whether a code is one of the 18 request codes (section 12.1). -/
def knownCode (code : Byte) : Bool :=
  decide (code.toNat ∈ [0x01, 0x02, 0x03, 0x04, 0x05, 0x10, 0x11, 0x20, 0x21, 0x22, 0x23, 0x24, 0x30, 0x31, 0x40, 0x50,
    0x51, 0x52])

/-- The code of READ_COUNTERS (section 12.1). -/
def codeReadCounters : Byte := 0x40

/-- The header checks after the short check: version, code, flags (R133). -/
def headerRefusal (r : Request) : Option Answer :=
  if r.version ≠ 1 then some (Answer.refuse .badVersion)
  else if !knownCode r.code then some (Answer.refuse .badCode)
  else if undefinedFlags r.flags || (clearFlag r.flags && r.code != codeReadCounters) then
    some (Answer.badArgument .badValue)
  else none

/-- The owner check (R135). -/
def ownerCheck (r : Request) (s : State) : Bool :=
  s.agent.session.isOpen && r.source == s.agent.session.ownerAddress && r.session == s.agent.session.number

/-- Record an executed owner request: the last sequence and the replay record (R136). -/
def recordRequest (r : Request) (a : Answer) (s : State) : State :=
  { s with agent := { s.agent with
      session := { s.agent.session with lastSequence := r.sequence }
      replay := some ⟨r.sequence, r.code, a.status⟩ } }

/-- The recorded request that an owner request repeats: sequence equal to q, a replay record present, and its code (R136). -/
def duplicateOf (r : Request) (s : State) : Option Replay :=
  match s.agent.replay with
  | some replay =>
    if r.sequence = s.agent.session.lastSequence ∧ r.code = replay.code then some replay else none
  | none => none

/-- An owner-only request after its header checks: the owner check, which restarts the lease, the sequence check, execution and recording
(R135, R136). -/
def judgeOwner (run : Request → State → Verdict) (r : Request) (s : State) : Verdict :=
  if ownerCheck r s then
    let s1 := restartLease s
    let expected := s1.agent.session.lastSequence + 1
    if r.sequence = expected then
      match run r s1 with
      | .answer s2 a => .answer (recordRequest r a s2) a
      | .closing s2 a => .answer (endSession (recordRequest r a s2)) a
      | .silent s2 => .silent s2
    else
      match duplicateOf r s1 with
      | some replay => .answer s1 ⟨replay.status, flagDuplicate, []⟩
      | none => .answer s1 ⟨.sequenceGap, 0, bigEndian 2 expected.toNat⟩
  else .answer s (Answer.refuse .notOwner)

/-- Answer a verdict. -/
def settleVerdict (r : Request) : Verdict → State
  | .answer s a => respond r a s
  | .closing s a => respond r a (endSession s)
  | .silent s => s

/-- A request that passed the short check: the header checks, then its judgement, then the response (R132, R133). -/
def serveRequest (judge : Request → State → Verdict) (r : Request) (s : State) : State :=
  match headerRefusal r with
  | some a => respond r a s
  | none => settleVerdict r (judge r s)

/-! ### Taking requests -/

/-- A service moment is at hand: part time is a whole multiple of 1,024 and the agent has not used the moment (R132). -/
def serviceOpen (s : State) : Bool :=
  s.pins.resetN && s.time.toNat % Config.servicePeriod == 0 && !s.agent.serviced

/-- The oldest slot has left the FIFO, and the service moment is used (R132). -/
def takeSlot (rest : List Slot) (s : State) : State :=
  { s with agent := { s.agent with fifo := rest, serviced := true } }

/-- The request-taken event of a row (R132): at a service moment, when the oldest request is of that row, it is taken and handled. Otherwise
the event does not take place (log entry 2). -/
def takeRequest (row : Instr) (handle : Slot → State → State) (s : State) : State :=
  if serviceOpen s then
    match s.agent.fifo with
    | [] => s
    | slot :: rest => if slotRow slot = row then handle slot (takeSlot rest s) else s
  else s

/-- The event of a request that is not owner-only (R137). -/
def takeOpen (row : Instr) (run : Request → State → Verdict) (s : State) : Host.Outcome State Fault Refusal :=
  .next (takeRequest row (fun slot s => serveRequest run (requestOf slot) s) s)

/-- The event of an owner-only request (R135, R136). -/
def takeOwned (row : Instr) (run : Request → State → Verdict) (s : State) : Host.Outcome State Fault Refusal :=
  .next (takeRequest row (fun slot s => serveRequest (judgeOwner run) (requestOf slot) s) s)

/-- A request without arguments, judged for length (R183). -/
def withoutArguments (run : Request → State → Verdict) (r : Request) (s : State) : Verdict :=
  if r.args.isEmpty then run r s else .answer s (Answer.badArgument .badLength)

/-- A request with a fixed size of arguments, judged for length (R183). -/
def withArguments (size : Nat) (run : Request → State → Verdict) (r : Request) (s : State) : Verdict :=
  if r.args.length = size then run r s else .answer s (Answer.badArgument .badLength)

/-- SHORT_FRAME_DROPPED: the request is dropped and counted, without a response (R133). -/
def execShortFrameDropped (s : State) : Host.Outcome State Fault Refusal :=
  .next (takeRequest .shortFrameDropped
    (fun _ s => s.countAgent (fun c => { c with shortFrames := Count.up c.shortFrames })) s)

/-- BAD_CODE: the header checks answer a request of an unknown code, BAD_VERSION coming first (R133). -/
def execBadCode (s : State) : Host.Outcome State Fault Refusal :=
  takeOpen .badCode (fun _ s => .answer s (Answer.refuse .badCode)) s

end Sys2Proof.Machine
end

