-- ==== Sys2Proof/Machine/ConfigRequests.lean ====
section
/-! DEFINITION. READ_CONFIG and the rows of WRITE_CONFIG (R141, R142 and the rules of each item). -/

namespace Sys2Proof.Machine

/-- READ_CONFIG: one item, or all 33 for the selector 0xFF (R141, R185). -/
def runReadConfig (r : Request) (s : State) : Verdict :=
  let id := fieldAt r.args 0 1
  if id = 0xFF then .answer s (Answer.okay (configIdentifiers.flatMap (configItemBytes s.config)))
  else if (configIdOf id).isSome then .answer s (Answer.okay (configItemBytes s.config id))
  else .answer s (Answer.badArgument .badValue)

/-- READ_CONFIG is taken (R141). -/
def execReadConfig (s : State) : Host.Outcome State Fault Refusal :=
  takeOpen .readConfig (withArguments 1 runReadConfig) s

/-- The frame of every WRITE_CONFIG: the identifier, then the length, then the item's own judgement (R142, R183). Without an identifier byte
the arguments are shorter than expected (log entry 17). -/
def writeConfigWith (write : ConfigId → List Byte → State → Verdict) (r : Request) (s : State) : Verdict :=
  match r.args with
  | [] => .answer s (Answer.badArgument .badLength)
  | id :: value =>
    match configIdOf id.toNat with
    | none => .answer s (Answer.badArgument .badValue)
    | some item =>
      if value.length = item.size then write item value s else .answer s (Answer.badArgument .badLength)

/-- Store the config items. -/
def State.setConfig (s : State) (c : ConfigItems) : State := { s with config := c }

/-- An accepted write: answered OK without a result (section 12.4). -/
def written (s : State) : Verdict := .answer s (Answer.okay [])

/-- A value outside its range: refused, nothing is written (R142). -/
def badValue (s : State) : Verdict := .answer s (Answer.badArgument .badValue)

/-- WRITE_CONFIG of an identifier without a row of its own, or of an enable with a value that is neither off nor on: refused (R142, log entry
8). -/
def execWriteConfig (s : State) : Host.Outcome State Fault Refusal :=
  takeOwned .writeConfig (writeConfigWith fun _ _ s => badValue s) s

/-- The tracker enable is stored on, and a tracker in OFF moves to SEEKING (R5). -/
def runTrackerEnableOn (s : State) : Verdict :=
  written (trackerEnable (s.setConfig { s.config with trackerEnable := true }))

/-- TRACKER_ENABLE_ON (R5). -/
def execTrackerEnableOn (s : State) : Host.Outcome State Fault Refusal :=
  takeOwned .trackerEnableOn (writeConfigWith fun _ _ s => runTrackerEnableOn s) s

/-- The tracker enable is stored off, and the tracker moves to OFF (R6). -/
def runTrackerEnableOff (s : State) : Verdict :=
  written (trackerDisable (s.setConfig { s.config with trackerEnable := false }))

/-- TRACKER_ENABLE_OFF (R6). -/
def execTrackerEnableOff (s : State) : Host.Outcome State Fault Refusal :=
  takeOwned .trackerEnableOff (writeConfigWith fun _ _ s => runTrackerEnableOff s) s

/-- A tracker item other than the enable: refused with WRONG_STATE unless the tracker is OFF, then judged by its range and stored (R18). -/
def runWriteTrackerItem (item : ConfigId) (value : List Byte) (s : State) : Verdict :=
  if s.tracker.state ≠ .off then .answer s (Answer.refuse .wrongState)
  else
    match trackerItemWritten s.config item value with
    | some c => written (s.setConfig c)
    | none => badValue s

/-- WRITE_TRACKER_ITEM (R18). -/
def execWriteTrackerItem (s : State) : Host.Outcome State Fault Refusal :=
  takeOwned .writeTrackerItem (writeConfigWith runWriteTrackerItem) s

/-- The sequencer enable is stored on, and a sequencer in STOPPED moves to FREE (R42). -/
def runSequencerEnableOn (s : State) : Verdict :=
  written (sequencerEnable (s.setConfig { s.config with sequencerEnable := true }))

/-- SEQUENCER_ENABLE_ON (R42). -/
def execSequencerEnableOn (s : State) : Host.Outcome State Fault Refusal :=
  takeOwned .sequencerEnableOn (writeConfigWith fun _ _ s => runSequencerEnableOn s) s

/-- The sequencer enable is stored off, and the sequencer moves to STOPPED (R42). -/
def runSequencerEnableOff (s : State) : Verdict :=
  written (sequencerDisable (s.setConfig { s.config with sequencerEnable := false }))

/-- SEQUENCER_ENABLE_OFF (R42). -/
def execSequencerEnableOff (s : State) : Host.Outcome State Fault Refusal :=
  takeOwned .sequencerEnableOff (writeConfigWith fun _ _ s => runSequencerEnableOff s) s

/-- A free gate set is stored, and presented at once in STOPPED or FREE (R41, R43). -/
def runWriteFreeGateSet (item : ConfigId) (value : List Byte) (s : State) : Verdict :=
  match item, gateSetOf (numberOf value) with
  | .freeGates p, some g =>
    written (freeGatesWritten (s.setConfig { s.config with freeGates := s.config.freeGates.set p g }))
  | _, _ => badValue s

/-- WRITE_FREE_GATE_SET (R43). -/
def execWriteFreeGateSet (s : State) : Host.Outcome State Fault Refusal :=
  takeOwned .writeFreeGateSet (writeConfigWith runWriteFreeGateSet) s

/-- The SYNC_OUT enable is stored; a pulse that is running completes (R60). -/
def runWriteSyncOutEnable (value : List Byte) (s : State) : Verdict :=
  match flagOf (numberOf value) with
  | some b => written (s.setConfig { s.config with syncOutEnable := b })
  | none => badValue s

/-- WRITE_SYNC_OUT_ENABLE (R60). -/
def execWriteSyncOutEnable (s : State) : Host.Outcome State Fault Refusal :=
  takeOwned .writeSyncOutEnable (writeConfigWith fun _ value s => runWriteSyncOutEnable value s) s

/-- The station address is stored unless it is a group address: the least significant bit of its first byte is one (R143). -/
def runWriteStationAddress (value : List Byte) (s : State) : Verdict :=
  if fieldAt value 0 1 % 2 = 1 then badValue s
  else written (s.setConfig { s.config with stationAddress := BitVec.ofNat 48 (numberOf value) })

/-- WRITE_STATION_ADDRESS (R143). -/
def execWriteStationAddress (s : State) : Host.Outcome State Fault Refusal :=
  takeOwned .writeStationAddress (writeConfigWith fun _ value s => runWriteStationAddress value s) s

/-- The management type is stored unless it is below 0x0600 or equals 0x8100 (R143). -/
def runWriteManagementType (value : List Byte) (s : State) : Verdict :=
  if numberOf value < 0x0600 ∨ numberOf value = 0x8100 then badValue s
  else written (s.setConfig { s.config with managementType := BitVec.ofNat 16 (numberOf value) })

/-- WRITE_MANAGEMENT_TYPE (R143). -/
def execWriteManagementType (s : State) : Host.Outcome State Fault Refusal :=
  takeOwned .writeManagementType (writeConfigWith fun _ value s => runWriteManagementType value s) s

/-- The default action is judged whole and stored (R104). -/
def runWriteDefaultAction (value : List Byte) (s : State) : Verdict :=
  match actionOf value with
  | some a => written (s.setConfig { s.config with defaultAction := a })
  | none => badValue s

/-- WRITE_DEFAULT_ACTION (R104). -/
def execWriteDefaultAction (s : State) : Host.Outcome State Fault Refusal :=
  takeOwned .writeDefaultAction (writeConfigWith fun _ value s => runWriteDefaultAction value s) s

/-- A quota of 0-512 cells is stored, and used from the next admission to that queue (R120). -/
def runWriteQuota (item : ConfigId) (value : List Byte) (s : State) : Verdict :=
  match item with
  | .quota p q =>
    if numberOf value ≤ 512 then
      written (s.setConfig { s.config with
        quotas := s.config.quotas.modify p (fun v => v.set q (numberOf value)) })
    else badValue s
  | _ => badValue s

/-- WRITE_QUOTA (R120). -/
def execWriteQuota (s : State) : Host.Outcome State Fault Refusal :=
  takeOwned .writeQuota (writeConfigWith runWriteQuota) s

/-- The notice enable set is stored unless it names anything beyond the seven kinds (R178). -/
def runWriteNoticeEnableSet (value : List Byte) (s : State) : Verdict :=
  if numberOf value < 128 then
    written (s.setConfig { s.config with noticeEnable := BitVec.ofNat 7 (numberOf value) })
  else badValue s

/-- WRITE_NOTICE_ENABLE_SET (R178). -/
def execWriteNoticeEnableSet (s : State) : Host.Outcome State Fault Refusal :=
  takeOwned .writeNoticeEnableSet (writeConfigWith fun _ value s => runWriteNoticeEnableSet value s) s

end Sys2Proof.Machine
end

