-- ==== Sys2Proof/Machine/TableRequests.lean ====
section
/-! DEFINITION. The requests on tables and programs: READ_MATCH, WRITE_MATCH (chapter 6), READ_PROGRAM, WRITE_PROGRAM, WRITE_PROGRAM_HEADER
(chapter 2), COMMIT and CANCEL_COMMIT (chapter 10). -/

namespace Sys2Proof.Machine

/-- A range of entries: the count lies in 1-8, the first index below the size, and the two do not run past it (R32, R110, R112). -/
def rangeLegal (first count size : Nat) : Bool :=
  decide (1 ≤ count) && decide (count ≤ 8) && decide (first < size) && decide (first + count ≤ size)

/-- Refused with BAD_RANGE. -/
def badRange (s : State) : Verdict := .answer s (Answer.badArgument .badRange)

/-! ### The Match Table -/

/-- One entry as READ_MATCH returns it: index, record, hit count (R112, section 12.4). -/
def matchEntryResult (c : Classifier) (i : MatchIndex) : List Byte :=
  bigEndian 2 i.val ++ matchRecordBytes (c.entry i) ++ bigEndian 4 (c.hit i).toNat

/-- READ_MATCH (R112). -/
def runReadMatch (r : Request) (s : State) : Verdict :=
  let first := fieldAt r.args 0 1
  let count := fieldAt r.args 1 1
  if rangeLegal first count 64 then
    .answer s (Answer.okay
      ((List.range count).flatMap (fun k => matchEntryResult s.classifier (Fin.ofNat 64 (first + k)))))
  else badRange s

/-- READ_MATCH is taken (R112). -/
def execReadMatch (s : State) : Host.Outcome State Fault Refusal :=
  takeOpen .readMatch (withArguments 2 runReadMatch) s

/-- Write records into the Match Table in index order, each entry's hit count set to 0 (R111). -/
def writeMatchEntries : List MatchEntry → Nat → Classifier → Classifier
  | [], _, c => c
  | e :: es, index, c =>
    writeMatchEntries es (index + 1)
      ⟨c.entries.set (Fin.ofNat 64 index) e, c.hits.set (Fin.ofNat 64 index) 0⟩

/-- The result of a write of entries: first index and count (section 12.4). -/
def writeResult (first count : Nat) : List Byte := [BitVec.ofNat 8 first, BitVec.ofNat 8 count]

/-- The argument steps of WRITE_MATCH and WRITE_PROGRAM: two bytes, the range, the length, the records (R183). -/
def writeEntries {α : Type} (size recordSize : Nat) (read : List Byte → Except Nat α)
    (write : List α → Nat → State → State) (r : Request) (s : State) : Verdict :=
  if r.args.length < 2 then .answer s (Answer.badArgument .badLength)
  else
    let first := fieldAt r.args 0 1
    let count := fieldAt r.args 1 1
    if rangeLegal first count size then
      if r.args.length = 2 + count * recordSize then
        match readRecords read recordSize count 0 (r.args.drop 2) with
        | .error (k, field) => .answer s (Answer.badArgument (.badField (first + k) field))
        | .ok records => .answer (write records first s) (Answer.okay (writeResult first count))
      else .answer s (Answer.badArgument .badLength)
    else badRange s

/-- WRITE_MATCH (R110, R111). -/
def runWriteMatch (r : Request) (s : State) : Verdict :=
  writeEntries 64 matchRecordSize readMatchRecord
    (fun es first s => { s with classifier := writeMatchEntries es first s.classifier }) r s

/-- WRITE_MATCH is taken (R110). -/
def execWriteMatch (s : State) : Host.Outcome State Fault Refusal :=
  takeOwned .writeMatch runWriteMatch s

/-! ### The program banks -/

/-- READ_PROGRAM's view of a bank: role, bank number, pending, header, first index, count, entries (R36, section 12.4). -/
def programResult (role : Nat) (id : BankId) (b : Bank) (pending : Bool) (first count : Nat) : List Byte :=
  [BitVec.ofNat 8 role, bankByte id] ++ flagByte pending ++ headerBytes b.header
    ++ [BitVec.ofNat 8 first, BitVec.ofNat 8 count]
    ++ (List.range count).flatMap (fun k => entryRecordBytes (b.entry (Fin.ofNat 32 (first + k))))

/-- READ_PROGRAM: the role, then the range (R36). -/
def runReadProgram (r : Request) (s : State) : Verdict :=
  let role := fieldAt r.args 0 1
  let first := fieldAt r.args 1 1
  let count := fieldAt r.args 2 1
  let ps := s.programs
  if 1 < role then badValue s
  else if rangeLegal first count 32 then
    if role = 0 then
      .answer s (Answer.okay (programResult 0 ps.active ps.activeBank ps.commitPending first count))
    else .answer s (Answer.okay (programResult 1 ps.staged ps.stagedBank ps.commitPending first count))
  else badRange s

/-- READ_PROGRAM is taken (R36). -/
def execReadProgram (s : State) : Host.Outcome State Fault Refusal :=
  takeOpen .readProgram (withArguments 3 runReadProgram) s

/-- Write entry records into a bank in index order, each replacing the whole entry (R33). -/
def writeBankEntries : List Entry → Nat → Bank → Bank
  | [], _, b => b
  | e :: es, index, b => writeBankEntries es (index + 1) { b with entries := b.entries.set (Fin.ofNat 32 index) e }

/-- Refused with STAGED_LOCKED while a commit is pending (R35). -/
def unlessLocked (run : Request → State → Verdict) (r : Request) (s : State) : Verdict :=
  if s.programs.commitPending then .answer s (Answer.refuse .stagedLocked) else run r s

/-- WRITE_PROGRAM after the STAGED_LOCKED step (R32, R33). -/
def runWriteProgram (r : Request) (s : State) : Verdict :=
  writeEntries 32 entryRecordSize readEntryRecord
    (fun es first s => { s with
      programs := s.programs.setStaged (writeBankEntries es first s.programs.stagedBank) }) r s

/-- WRITE_PROGRAM is taken (R32). -/
def execWriteProgram (s : State) : Host.Outcome State Fault Refusal :=
  takeOwned .writeProgram (unlessLocked runWriteProgram) s

/-- WRITE_PROGRAM_HEADER replaces the whole header of the staged bank (R34). -/
def runWriteProgramHeader (r : Request) (s : State) : Verdict :=
  .answer { s with
    programs := s.programs.setStaged { s.programs.stagedBank with header := readHeader r.args } } (Answer.okay [])

/-- WRITE_PROGRAM_HEADER is taken: the STAGED_LOCKED step, then the length (R34, R183). -/
def execWriteProgramHeader (s : State) : Host.Outcome State Fault Refusal :=
  takeOwned .writeProgramHeader (unlessLocked (withArguments 5 runWriteProgramHeader)) s

/-! ### Commit -/

/-- A well-formed bank is committed by the sequencer's state: at once in STOPPED and FREE with APPLIED, else pending with PENDING (R163,
R164). The result is the number of the bank that is, or will become, active. -/
def commitBank (s : State) : Verdict :=
  let result := [bankByte s.programs.staged]
  if s.sequencer.state.follows then
    .answer { s with programs := { s.programs with commitPending := true } } ⟨.ok, flagPending, result⟩
  else .answer (swapBanks .immediate s.sequencer.cycle s) ⟨.ok, flagApplied, result⟩

/-- COMMIT: already pending, validation, sequencer state (R162). -/
def runCommit (_r : Request) (s : State) : Verdict :=
  if s.programs.commitPending then .answer s (Answer.refuse .commitPending)
  else
    match validate s.programs.stagedBank with
    | some f => .answer s ⟨.programInvalid, 0, programFaultBytes f⟩
    | none => commitBank s

/-- COMMIT is taken (R162). -/
def execCommit (s : State) : Host.Outcome State Fault Refusal :=
  takeOwned .commit (withoutArguments runCommit) s

/-- CANCEL_COMMIT withdraws a pending commit and raises COMMIT_CANCELLED, or is refused with NO_COMMIT (R169, R171). -/
def runCancelCommit (_r : Request) (s : State) : Verdict :=
  if s.programs.commitPending then
    .answer (raiseNotice (.commitCancelled s.programs.staged) s.sequencer.cycle
      { s with programs := { s.programs with commitPending := false } }) (Answer.okay [])
  else .answer s (Answer.refuse .noCommit)

/-- CANCEL_COMMIT is taken (R169). -/
def execCancelCommit (s : State) : Host.Outcome State Fault Refusal :=
  takeOwned .cancelCommit (withoutArguments runCancelCommit) s

end Sys2Proof.Machine
end

