-- ==== Sys2Proof/Machine/SessionRequests.lean ====
section
/-! DEFINITION. HALT and RESUME (chapter 3), READ_COUNTERS (chapter 11), the session requests and LEASE_EXPIRY (chapter 9), the RESET requests
(chapter 8). -/

namespace Sys2Proof.Machine

/-! ### HALT and RESUME -/

/-- HALT: in RUNNING to HALTED, elsewhere refused with WRONG_STATE (R56). -/
def runHalt (_r : Request) (s : State) : Verdict :=
  if s.sequencer.state = .running then .answer (sequencerHalt s) (Answer.okay [])
  else .answer s (Answer.refuse .wrongState)

/-- HALT is taken (R56). -/
def execHalt (s : State) : Host.Outcome State Fault Refusal :=
  takeOwned .halt (withoutArguments runHalt) s

/-- RESUME: in HALTED to REJOINING, elsewhere refused with WRONG_STATE (R57). -/
def runResume (_r : Request) (s : State) : Verdict :=
  if s.sequencer.state = .halted then
    .answer { s with sequencer := { s.sequencer with state := .rejoining } } (Answer.okay [])
  else .answer s (Answer.refuse .wrongState)

/-- RESUME is taken (R57). -/
def execResume (s : State) : Host.Outcome State Fault Refusal :=
  takeOwned .resume (withoutArguments runResume) s

/-! ### Counters -/

/-- The result of a read of a group: the selector, then each counter (section 12.4). -/
def groupResult (selector : Nat) (c : Counters) (g : Group) : List Byte :=
  BitVec.ofNat 8 selector :: (groupValues c g).flatMap (fun v => bigEndian 4 v.toNat)

/-- READ_COUNTERS without CLEAR (R174). -/
def runReadCounters (r : Request) (s : State) : Verdict :=
  let selector := fieldAt r.args 0 1
  match groupOf selector with
  | some g => .answer s (Answer.okay (groupResult selector s.counters g))
  | none => badValue s

/-- READ_COUNTERS without CLEAR is taken (R174). -/
def execReadCounters (s : State) : Host.Outcome State Fault Refusal :=
  takeOpen .readCounters (withArguments 1 runReadCounters) s

/-- READ_COUNTERS with CLEAR reads the group and sets its counters to 0 in one step (R175). -/
def runReadCountersClear (r : Request) (s : State) : Verdict :=
  let selector := fieldAt r.args 0 1
  match groupOf selector with
  | some g =>
    .answer { s with counters := clearGroup s.counters g } (Answer.okay (groupResult selector s.counters g))
  | none => badValue s

/-- READ_COUNTERS with CLEAR is taken (R175). -/
def execReadCountersClear (s : State) : Host.Outcome State Fault Refusal :=
  takeOwned .readCountersClear (withArguments 1 runReadCountersClear) s

/-! ### Sessions -/

/-- A requested lease length is legal: 0, or 1,000-300,000 ms (R152, R154). -/
def leaseLegal (ms : Nat) : Bool := decide (ms = 0) || (decide (1000 ≤ ms) && decide (ms ≤ 300000))

/-- The whole milliseconds of lease that remain (R153). -/
def remainingLease (s : State) : Nat := Time.since s.agent.session.leaseExpiry s.time / Config.ticksPerMs

/-- The result of SESSION_HELD (R153, section 12.4). -/
def heldResult (s : State) : List Byte :=
  bigEndian 6 s.agent.session.ownerAddress.toNat ++ [portByte s.agent.session.ownerPort]
    ++ bigEndian 4 (remainingLease s)

/-- Open the session (R152). -/
def openedSession (r : Request) (ms : Nat) (s : State) : State :=
  restartLease (s.setSession { s.agent.session with
    isOpen := true
    ownerAddress := r.source
    ownerPort := r.port
    number := s.agent.session.number + 1
    leaseMs := if ms = 0 then 30000 else ms
    lastSequence := r.sequence })

/-- OPEN_SESSION: source, lease, state (R152, R153). -/
def runOpenSession (r : Request) (s : State) : Verdict :=
  let ms := fieldAt r.args 0 4
  if !individualAddress r.source then badValue s
  else if !leaseLegal ms then badValue s
  else if s.agent.session.isOpen then .answer s ⟨.sessionHeld, 0, heldResult s⟩
  else
    let s1 := openedSession r ms s
    .answer s1 (Answer.okay
      (bigEndian 2 s1.agent.session.number.toNat ++ bigEndian 4 s1.agent.session.leaseMs))

/-- OPEN_SESSION is taken (R152). -/
def execOpenSession (s : State) : Host.Outcome State Fault Refusal :=
  takeOpen .openSession (withArguments 4 runOpenSession) s

/-- An executed RENEW: the length, the restarted lease, the owner port, and an offer of the waiting notices (R154, R179). -/
def renewedSession (r : Request) (ms : Nat) (s : State) : State :=
  offerAllNotices (restartLease (s.setSession { s.agent.session with
    leaseMs := if ms = 0 then s.agent.session.leaseMs else ms
    ownerPort := r.port }))

/-- RENEW (R154). -/
def runRenew (r : Request) (s : State) : Verdict :=
  let ms := fieldAt r.args 0 4
  if !leaseLegal ms then badValue s
  else
    let s1 := renewedSession r ms s
    .answer s1 (Answer.okay
      (bigEndian 4 s1.agent.session.leaseMs ++ bigEndian 6 s1.agent.session.leaseExpiry.toNat))

/-- RENEW is taken (R154). -/
def execRenew (s : State) : Host.Outcome State Fault Refusal :=
  takeOwned .renew (withArguments 4 runRenew) s

/-- CLOSE_SESSION: the session ends after the request is recorded (R155). -/
def runCloseSession (_r : Request) (s : State) : Verdict := .closing s (Answer.okay [])

/-- CLOSE_SESSION is taken (R155). -/
def execCloseSession (s : State) : Host.Outcome State Fault Refusal :=
  takeOwned .closeSession (withoutArguments runCloseSession) s

/-- LEASE_EXPIRY: in OPEN the session ends (R156). -/
def execLeaseExpiry (s : State) : Host.Outcome State Fault Refusal :=
  .next (outsideReset s fun s =>
    if s.agent.session.isOpen ∧ waitDue s.agent.session.leaseWait s then endSession s else s)

/-! ### RESET -/

/-- Abort a transmission at a TRAFFIC reset: counted as flushed at the queue named in the record (R75, R126). -/
def trafficAbort (p : Port) (s : State) : State :=
  match (s.sched p).inFlight with
  | some f =>
    let r := s.record f.record
    abortTransmission p (s.countQueue r.port r.queue (fun c => { c with flushed := Count.up c.flushed }))
  | none => s

/-- The effects of RESET TRAFFIC (R146, steps 1 to 3): both transmitters, all 18 queues, the tracker if its enable is on. R146 and R126 do not
order the two aborts; that port A's record is freed before port B's, which orders the free lists, is the model's choice (log entry 22). -/
def trafficReset (s : State) : State :=
  let s1 := trafficAbort .b (trafficAbort .a s)
  let s2 := flushPort .b (flushPort .a s1)
  if s2.config.trackerEnable then trackerDisturbed .trafficReset s2 else s2

/-- RESET of a kind that is not FULL: TRAFFIC, or refused for its kind (R146). -/
def runResetTraffic (r : Request) (s : State) : Verdict :=
  if fieldAt r.args 0 1 = 0 then .answer (trafficReset s) (Answer.okay []) else badValue s

/-- RESET kind TRAFFIC is taken (R146). -/
def execResetTraffic (s : State) : Host.Outcome State Fault Refusal :=
  takeOwned .resetTraffic (withArguments 1 runResetTraffic) s

/-- RESET kind FULL: no response (R147). -/
def runResetFull (_r : Request) (s : State) : Verdict := .silent (fullReset s)

/-- RESET kind FULL is taken (R147). -/
def execResetFull (s : State) : Host.Outcome State Fault Refusal :=
  takeOwned .resetFull runResetFull s

end Sys2Proof.Machine
end

