-- ==== Sys2Proof/Machine/StatusRequests.lean ====
section
/-! DEFINITION. IDENTIFY (R144) and READ_STATUS (R145, section 12.4). -/

namespace Sys2Proof.Machine

/-- The 24 bytes of IDENTIFY (R144, section 12.4). -/
def identifyResult (s : State) : List Byte :=
  bigEndian 2 0x4D46 ++ bigEndian 2 0x0C02 ++ [1] ++ bigEndian 6 s.config.stationAddress.toNat
    ++ [speedByte (s.speed .a), speedByte (s.speed .b)]
    ++ bigEndian 2 Config.cellCount ++ bigEndian 2 Config.cellSize ++ bigEndian 2 Config.recordCount
    ++ bigEndian 1 Config.matchEntryCount ++ bigEndian 1 Config.bankEntryCount ++ bigEndian 1 Config.historyLength
    ++ bigEndian 1 Config.noticeCapacity ++ bigEndian 1 Config.fifoCapacity

/-- IDENTIFY changes nothing (R144). -/
def runIdentify (_r : Request) (s : State) : Verdict := .answer s (Answer.okay (identifyResult s))

/-- IDENTIFY is taken (R144). -/
def execIdentify (s : State) : Host.Outcome State Fault Refusal :=
  takeOpen .identify (withoutArguments runIdentify) s

/-- An indicator and a part time; absent is 0 beside an indicator of 0 (R185). -/
def optionalTime (t : Option Time) : List Byte := optionalField 6 (t.map BitVec.toNat)

/-- Offsets 6 to 83: the tracker and its history (R21). -/
def trackerStatus (t : Tracker) : List Byte :=
  [trackerStateByte t.state] ++ optionalField 4 t.ref ++ bigEndian 1 t.history.length
    ++ bigEndian 1 t.missing ++ bigEndian 6 t.boundary.toNat
    ++ ((t.history ++ List.replicate (16 - t.history.length) 0).take 16).flatMap (bigEndian 4)

/-- A pending transition: present, target, due (R62). -/
def transitionStatus (t : Option Transition) : List Byte :=
  match t with
  | some x => 1 :: bigEndian 1 x.target.val ++ bigEndian 6 x.due.toNat
  | none => List.replicate 8 0

/-- Offsets 84 to 126: the sequencer (R62). The kind is that of the active bank's entry at the current index (log entry 14), and the guard
limit that of port A's presentation, the same for both ports (R39, log entry 21). -/
def sequencerStatus (s : State) : List Byte :=
  let q := s.sequencer
  [sequencerStateByte q.state, BitVec.ofNat 8 q.current.val, entryKindByte s.currentEntry.ending]
    ++ flagByte q.stepSeen ++ bigEndian 6 q.origin.toNat ++ bigEndian 4 q.span ++ bigEndian 6 q.endTime.toNat
    ++ transitionStatus q.pending ++ bigEndian 4 q.cycle.toNat
    ++ bigEndian 2 q.presentation.a.gates.toNat ++ bigEndian 2 q.presentation.b.gates.toNat
    ++ optionalTime q.presentation.a.limit

/-- The in-flight fields: transmitter state, queue name, L, start time, completion due (R79). -/
def transmitterStatus (s : State) (f : Option InFlight) : List Byte :=
  match f with
  | some x =>
    [1, BitVec.ofNat 8 (s.record x.record).queue.val] ++ bigEndian 2 (s.record x.record).length
      ++ bigEndian 6 x.start.toNat ++ bigEndian 6 x.due.toNat
  | none => List.replicate 16 0

/-- Offsets 127 to 153 and 154 to 180: a port (R96, R79). -/
def portStatus (s : State) (p : Port) : List Byte :=
  [speedByte (s.speed p), linkByte (s.port p).link] ++ bigEndian 2 (s.sched p).presentation.gates.toNat
    ++ optionalTime (s.sched p).presentation.limit ++ transmitterStatus s (s.sched p).inFlight

/-- The frame count and cell count of the nine queues of a port (R129). -/
def queueStatus (s : State) (p : Port) : List Byte :=
  (s.sched p).queues.toList.flatMap (fun q => bigEndian 2 q.frames ++ bigEndian 2 q.cells)

/-- Offsets 259 to 277: the agent (R145, R160). -/
def agentStatus (a : Agent) : List Byte :=
  bigEndian 1 a.fifo.length ++ flagByte a.session.isOpen ++ [portByte a.session.ownerPort]
    ++ bigEndian 6 a.session.ownerAddress.toNat ++ bigEndian 2 a.session.number.toNat
    ++ bigEndian 6 a.session.leaseExpiry.toNat ++ bigEndian 2 a.session.lastSequence.toNat

/-- Offsets 278 to 281: the notice queue (R181). -/
def noticeStatus (n : NoticeQueue) : List Byte :=
  bigEndian 1 n.records.length ++ flagByte n.loss ++ bigEndian 2 n.sequence.toNat

/-- The 282 bytes of READ_STATUS (R145, section 12.4). -/
def statusResult (s : State) : List Byte :=
  bigEndian 6 s.time.toNat ++ trackerStatus s.tracker ++ sequencerStatus s ++ portStatus s .a ++ portStatus s .b
    ++ bigEndian 2 s.pool.freeRecords.length ++ bigEndian 2 s.pool.freeCells.length
    ++ queueStatus s .a ++ queueStatus s .b
    ++ [bankByte s.programs.active] ++ flagByte s.programs.commitPending
    ++ agentStatus s.agent ++ noticeStatus s.notices

/-- READ_STATUS changes nothing (R145). -/
def runReadStatus (_r : Request) (s : State) : Verdict := .answer s (Answer.okay (statusResult s))

/-- READ_STATUS is taken (R145). -/
def execReadStatus (s : State) : Host.Outcome State Fault Refusal :=
  takeOpen .readStatus (withoutArguments runReadStatus) s

end Sys2Proof.Machine
end

