-- ==== Sys2Proof/Machine/Tick.lean ====
section
/-! DEFINITION. The time base (R92, R93): part time, the expiries that fall due at it, the agent's service moment (R132), and the order in
which they are handed out (log entries 1, 2, 3). -/

namespace Sys2Proof.Machine

/-- One event, if it takes place. -/
def eventIf (takesPlace : Bool) (i : Instr) : List Instr := if takesPlace then [i] else []

/-- The completion wait of a port's in-flight frame is due (R72, R74). -/
def completionDue (p : Port) (s : State) : Bool := waitDue ((s.sched p).inFlight.map InFlight.due) s

/-- The request at the front of the FIFO at a service moment, as the row that takes it (R132). -/
def serviceEvent (s : State) : List Instr :=
  match s.agent.fifo with
  | [] => []
  | slot :: _ => eventIf (serviceOpen s) (slotRow slot)

/-- The events that the time base and the agent have at the present part time: the expiry of every wait that is due (R93), and the taking of
a request at a service moment (R132). -/
def dueEvents (s : State) : List Instr :=
  eventIf (s.tracker.wait == some (.acquireTimeout s.time)) .acquireTimeout
    ++ eventIf (s.tracker.wait == some (.windowClose s.time)) .windowClose
    ++ eventIf (waitDue s.sequencer.deadline s) .entryDeadline
    ++ eventIf (waitDue s.sequencer.settle s) .settleDue
    ++ eventIf (waitDue s.sequencer.pulseEnd s) .syncOutPulseEnd
    ++ eventIf (completionDue .a s) (.transmissionCompletion .a)
    ++ eventIf (completionDue .b s) (.transmissionCompletion .b)
    ++ eventIf (waitDue s.agent.session.leaseWait s) .leaseExpiry
    ++ serviceEvent s

/-- The events of the present part time that have not been handed out. -/
def openEvents (s : State) : List Instr := (dueEvents s).filter (fun e => !s.handed.contains e)

/-- Hand out one event: it stands in the empty queue, and is not handed out again at this part time (R93). -/
def handOut (e : Instr) (s : State) : State := { s with pending := [e], handed := e :: s.handed }

/-- Hand out one of several events, the one that a free value names (R9, R14, R93, R132 leave the order open: log entry 3). -/
def handOutOne (e : Instr) (es : List Instr) (s : State) : State :=
  handOut ((e :: es).getD (Config.tieChoice s.tieCount % (es.length + 1)) e) { s with tieCount := s.tieCount + 1 }

/-- Part time rises by one, wrapping at 2^48 (R92); at the new part time nothing has been handed out, and the agent has not been at its
service moment, if it is one (R132). -/
def advance (s : State) : State :=
  { s with time := s.time + 1, agent := { s.agent with serviced := false }, handed := [] }

/-- Hand out an event of the present part time, while there is one; else part time rises. -/
def nextEvent (s : State) : State :=
  match openEvents s with
  | [] => advance s
  | [e] => handOut e s
  | e :: es => handOutOne e es s

/-- One move on an empty queue of commands (log entry 1). At a service moment with the FIFO empty the agent is done with the moment: "nothing
happens" (R132). Else an event of the present part time is handed out, or part time rises. A command from outside comes before or after an
event of the same moment as the sender puts it into the queue before or after this move, so every order of R9, R14 and R132 may be taken (log
entry 3). While RESET_N is low part time does not count and nothing happens (R95). -/
def tick (s : State) : State :=
  if s.inReset then s
  else if serviceOpen s && s.agent.fifo.isEmpty then { s with agent := { s.agent with serviced := true } }
  else nextEvent s

end Sys2Proof.Machine
end

