-- ==== Sys2Proof/Machine/Dispatch.lean ====
section
/-! DEFINITION. The meaning of each command: one arm per constructor of Instr. -/

namespace Sys2Proof.Machine

def exec (i : Instr) (s : State) : Host.Outcome State Fault Refusal :=
  match i with
  | .resetNAssert => Sys2Proof.Machine.execResetNAssert s
  | .resetNRelease straps => Sys2Proof.Machine.execResetNRelease straps s
  | .linkUp port => Sys2Proof.Machine.execLinkUp port s
  | .linkDown port => Sys2Proof.Machine.execLinkDown port s
  | .receptionCompletion port frame receiveError => Sys2Proof.Machine.execReceptionCompletion port frame receiveError s
  | .acquireTimeout => Sys2Proof.Machine.execAcquireTimeout s
  | .windowClose => Sys2Proof.Machine.execWindowClose s
  | .entryDeadline => Sys2Proof.Machine.execEntryDeadline s
  | .settleDue => Sys2Proof.Machine.execSettleDue s
  | .syncOutPulseEnd => Sys2Proof.Machine.execSyncOutPulseEnd s
  | .transmissionCompletion port => Sys2Proof.Machine.execTransmissionCompletion port s
  | .leaseExpiry => Sys2Proof.Machine.execLeaseExpiry s
  | .shortFrameDropped => Sys2Proof.Machine.execShortFrameDropped s
  | .badCode => Sys2Proof.Machine.execBadCode s
  | .identify => Sys2Proof.Machine.execIdentify s
  | .readConfig => Sys2Proof.Machine.execReadConfig s
  | .writeConfig => Sys2Proof.Machine.execWriteConfig s
  | .trackerEnableOn => Sys2Proof.Machine.execTrackerEnableOn s
  | .trackerEnableOff => Sys2Proof.Machine.execTrackerEnableOff s
  | .writeTrackerItem => Sys2Proof.Machine.execWriteTrackerItem s
  | .sequencerEnableOn => Sys2Proof.Machine.execSequencerEnableOn s
  | .sequencerEnableOff => Sys2Proof.Machine.execSequencerEnableOff s
  | .writeFreeGateSet => Sys2Proof.Machine.execWriteFreeGateSet s
  | .writeSyncOutEnable => Sys2Proof.Machine.execWriteSyncOutEnable s
  | .writeStationAddress => Sys2Proof.Machine.execWriteStationAddress s
  | .writeManagementType => Sys2Proof.Machine.execWriteManagementType s
  | .writeDefaultAction => Sys2Proof.Machine.execWriteDefaultAction s
  | .writeQuota => Sys2Proof.Machine.execWriteQuota s
  | .writeNoticeEnableSet => Sys2Proof.Machine.execWriteNoticeEnableSet s
  | .readStatus => Sys2Proof.Machine.execReadStatus s
  | .resetTraffic => Sys2Proof.Machine.execResetTraffic s
  | .resetFull => Sys2Proof.Machine.execResetFull s
  | .readMatch => Sys2Proof.Machine.execReadMatch s
  | .writeMatch => Sys2Proof.Machine.execWriteMatch s
  | .readProgram => Sys2Proof.Machine.execReadProgram s
  | .writeProgram => Sys2Proof.Machine.execWriteProgram s
  | .writeProgramHeader => Sys2Proof.Machine.execWriteProgramHeader s
  | .commit => Sys2Proof.Machine.execCommit s
  | .cancelCommit => Sys2Proof.Machine.execCancelCommit s
  | .halt => Sys2Proof.Machine.execHalt s
  | .resume => Sys2Proof.Machine.execResume s
  | .readCounters => Sys2Proof.Machine.execReadCounters s
  | .readCountersClear => Sys2Proof.Machine.execReadCountersClear s
  | .openSession => Sys2Proof.Machine.execOpenSession s
  | .renew => Sys2Proof.Machine.execRenew s
  | .closeSession => Sys2Proof.Machine.execCloseSession s
  | .receptionStart port => Sys2Proof.Machine.execReceptionStart port s

end Sys2Proof.Machine
end

