-- ==== Sys2Proof/WellFormed.lean ====
section
/-! DEFINITION. What is well-formed: a command, a program entry record (R26), the config items (R140), a session record (R150). -/

namespace Sys2Proof

/-- Every command is well-formed: its operands are typed (a port is A or B, a strap level is one of two, the address straps are four bits,
a frame is a list of bytes of any length, the bytes-received count running from "0 upward" in R81), so there is no check to make. -/
def Instr.wellFormed (_ : Instr) : Bool := true

namespace Machine

/-- An entry's end offset lies in 1-1023 (R26); its settle and next lie in their ranges by their types. -/
def Entry.wellFormed (e : Entry) : Bool :=
  match e.ending with
  | .timed off _ => decide (1 ≤ off ∧ off ≤ 1023)
  | .step off _ _ => decide (1 ≤ off ∧ off ≤ 1023)
  | .tail => true

/-- Every entry of a bank is legal: "A bank never holds an illegal record" (R27). -/
def Bank.entriesLegal (b : Bank) : Bool := b.entries.toList.all Entry.wellFormed

/-- The quotas of one port lie in 0-512 (R120). -/
def quotasInRange (q : Vector Nat 9) : Bool := q.toList.all (fun n => decide (n ≤ 512))

/-- Every config item lies in its range (R140, R18, R120, R143). -/
def ConfigItems.wellFormed (c : ConfigItems) : Bool :=
  individualAddress c.stationAddress
    && decide (0x0600 ≤ c.managementType.toNat) && decide (c.managementType ≠ 0x8100)
    && decide (c.depth ∈ [1, 2, 4, 8, 16])
    && decide (1 ≤ c.window ∧ c.window ≤ 128)
    && decide (c.holdover ≤ 15)
    && decide (1000 ≤ c.spanMin ∧ c.spanMin ≤ c.spanMax ∧ c.spanMax ≤ 125000000)
    && quotasInRange c.quotas.a && quotasInRange c.quotas.b

/-- A lease length lies in 1,000-300,000 ms (R150). -/
def Session.leaseInRange (s : Session) : Bool := decide (1000 ≤ s.leaseMs ∧ s.leaseMs ≤ 300000)

end Machine

end Sys2Proof
end

