-- ==== Sys2Proof/Safety.lean ====
section
/-! DEFINITION. What the statements speak of: frames, a request at a service moment, and the properties that every step keeps. -/

namespace Sys2Proof.Machine

/-! ### Frames -/

/-- The two states differ at most in the schedulers, the pool and the counters: what frames that are admitted, started, freed or flushed
reach. -/
def State.sameButTraffic (s t : State) : Prop :=
  t = { s with egress := t.egress, pool := t.pool, counters := t.counters }

/-- The two states differ at most in the schedulers, the pool, the counters and the notice queue: what a raised notice reaches. -/
def State.sameButNotices (s t : State) : Prop :=
  t = { s with egress := t.egress, pool := t.pool, counters := t.counters, notices := t.notices }

/-- The two states differ at most in the schedulers, the pool, the counters, the notice queue, the sequencer, the programs and the SYNC_OUT
pin: what an event of the walk reaches. -/
def State.sameButWalk (s t : State) : Prop :=
  t = { s with
    egress := t.egress, pool := t.pool, counters := t.counters, notices := t.notices, sequencer := t.sequencer
    programs := t.programs, pins := { s.pins with syncOut := t.pins.syncOut } }

/-- The two states differ at most in what the cadence reaches: the tracker, LOCK, and what the walk reaches. -/
def State.sameButCadence (s t : State) : Prop :=
  t = { s with
    egress := t.egress, pool := t.pool, counters := t.counters, notices := t.notices, sequencer := t.sequencer
    programs := t.programs, tracker := t.tracker
    pins := { s.pins with syncOut := t.pins.syncOut, lock := t.pins.lock } }

/-! ### Notices that an event raises -/

/-- From s, the event that ends in t raises just these notices, in this order, each with this cycle number (R19, R171): it reaches a state in
which the notice queue still stands, raises the first there, and goes on so; after the last one the notice queue stands. -/
def State.raises (s : State) (cycle : Count) : List NoticeDetail → State → Prop
  | [], t => t.notices = s.notices
  | d :: ds, t => ∃ u, s.sameButCadence u ∧ u.notices = s.notices ∧ (raiseNotice d cycle u).raises cycle ds t

/-- A boundary starts a cycle in FREE, RUNNING and REJOINING (R44). -/
def SequencerState.startsCycle (st : SequencerState) : Bool := decide (st ∈ [.free, .running, .rejoining])

/-- The cycle number as a boundary leaves it: 0 from FREE, one more from RUNNING and REJOINING, else as it stands (R44, R46, R19). -/
def State.boundaryCycle (s : State) : Count :=
  if s.sequencer.state = .free then 0
  else if s.sequencer.state.startsCycle then s.sequencer.cycle + 1
  else s.sequencer.cycle

/-- What the sequencer raises at a boundary: COMMIT_DONE with the bank that becomes active and CYCLE_START, when a cycle starts and a commit is
pending (R46, R166, R171). -/
def State.boundaryNotices (s : State) : List NoticeDetail :=
  if s.sequencer.state.startsCycle ∧ s.programs.commitPending then [.commitDone s.programs.staged .cycleStart] else []

/-- The cycle number as a lock loss leaves it: 0 when a program was followed (R59). -/
def State.lossCycle (s : State) : Count := if s.sequencer.state.follows then 0 else s.sequencer.cycle

/-- What a lock loss raises: LOCK_LOST with its cause, then COMMIT_DONE with FREE_ENTRY when a pending commit is applied (R16, R167, R171). -/
def State.lossNotices (s : State) (cause : LossCause) : List NoticeDetail :=
  .lockLost cause
    :: (if s.sequencer.state.follows ∧ s.programs.commitPending then [.commitDone s.programs.staged .freeEntry] else [])

/-- The sequencer after a lock loss (R59): from a program followed, FREE with cycle number 0, no wait and the free gate sets; else unchanged. -/
def State.lossSequencer (s : State) : Sequencer :=
  if s.sequencer.state.follows then
    { s.sequencer with
      state := .free, cycle := 0, deadline := none, settle := none, stepSeen := false, pending := none
      presentation := ⟨⟨s.config.freeGates.a, none⟩, ⟨s.config.freeGates.b, none⟩⟩ }
  else s.sequencer

/-- The Program Store after a lock loss (R59, R167): from a program followed, a pending commit is applied. -/
def State.lossPrograms (s : State) : ProgramStore :=
  if s.sequencer.state.follows ∧ s.programs.commitPending then
    { s.programs with active := s.programs.staged, commitPending := false }
  else s.programs

/-- The sequencer counters after a lock loss (R52, R59): from a program followed, one settle cancel when a transition was pending. -/
def State.lossCounters (s : State) : SequencerCounters :=
  if s.sequencer.state.follows ∧ s.sequencer.pending ≠ none then
    { s.counters.sequencer with settleCancels := Count.up s.counters.sequencer.settleCancels }
  else s.counters.sequencer

/-! ### Walks through a bank -/

/-- The entry that an entry names as its next, unless it is a TAIL (R27). -/
def Bank.nextOf (b : Bank) (i : EntryIndex) : Option EntryIndex :=
  match (b.entry i).ending with
  | .timed _ next => some next
  | .step _ _ next => some next
  | .tail => none

/-- The end offset of an entry, unless it is a TAIL (R27). -/
def Bank.offsetOf (b : Bank) (i : EntryIndex) : Option Nat :=
  match (b.entry i).ending with
  | .timed offset _ => some offset
  | .step offset _ _ => some offset
  | .tail => none

/-- An entry is the next of another, and its end offset, if it has one, is the greater (R30). -/
def Bank.risesTo (b : Bank) (i j : EntryIndex) : Prop :=
  b.nextOf i = some j ∧ ∀ x y, b.offsetOf i = some x → b.offsetOf j = some y → x < y

/-- A walk of R30 as far as no check fails: distinct entries from the first to the last, each the next of the one before it, through rising end
offsets. -/
def Bank.walks (b : Bank) (first : EntryIndex) (walk : List EntryIndex) (last : EntryIndex) : Prop :=
  walk.head? = some first ∧ walk.getLast? = some last ∧ walk.Nodup ∧ walk.IsChain b.risesTo

/-- The walk from an entry comes to a TAIL through rising end offsets (R24, R30). -/
def Bank.risesToTail (b : Bank) (first : EntryIndex) : Prop :=
  ∃ walk last, b.walks first walk last ∧ (b.entry last).ending = .tail

/-! ### Requests at a service moment -/

/-- At a service moment the oldest request is in the slot, is of the row, and passes the header checks (R132, R133). -/
def State.serves (s : State) (row : Instr) (slot : Slot) (rest : List Slot) : Prop :=
  serviceOpen s = true ∧ s.agent.fifo = slot :: rest ∧ slotRow slot = row ∧ headerRefusal (requestOf slot) = none

/-- The request is the owner's, and its sequence is the next one (R135, R136). -/
def State.ownersNext (s : State) (r : Request) : Prop :=
  ownerCheck r s = true ∧ r.sequence = s.agent.session.lastSequence + 1

/-- The state in which the owner's request is executed: its slot has left the FIFO, and the lease is restarted (R132, R135, R151). -/
def State.owned (s : State) (rest : List Slot) : State := restartLease (takeSlot rest s)

/-- The request is answered: the next state is the one with its response offered and counted (R138, R139, R149). -/
def answers (row : Instr) (s : State) (r : Request) (a : Answer) (u : State) : Prop :=
  exec row s = .next (respond r a u)

/-- The owner's request is executed to the state u: it is recorded there (R136), then answered. -/
def executes (row : Instr) (s : State) (r : Request) (a : Answer) (u : State) : Prop :=
  answers row s r a (recordRequest r a u)

/-- The rows whose requests are not judged by the owner check (R134, R137), BAD_CODE among them. -/
def openRows : List Instr :=
  [.badCode, .identify, .readConfig, .readStatus, .readMatch, .readProgram, .readCounters, .openSession]

/-- The rows whose requests are owner-only (R134). -/
def ownerOnlyRows : List Instr :=
  [.writeConfig, .trackerEnableOn, .trackerEnableOff, .writeTrackerItem, .sequencerEnableOn, .sequencerEnableOff,
    .writeFreeGateSet, .writeSyncOutEnable, .writeStationAddress, .writeManagementType, .writeDefaultAction, .writeQuota,
    .writeNoticeEnableSet]
    ++ [.resetTraffic, .resetFull, .writeMatch, .writeProgram, .writeProgramHeader, .commit, .cancelCommit, .halt, .resume,
      .readCountersClear, .renew, .closeSession]

/-- The rows of requests that are not owner-only, with the size of their arguments (R183, section 12.4). -/
def openArguments : List (Instr × Nat) :=
  [(.identify, 0), (.readStatus, 0), (.readConfig, 1), (.readMatch, 2), (.readProgram, 3), (.readCounters, 1), (.openSession, 4)]

/-- The rows of owner-only requests whose first judgement is that of a fixed size of arguments, with that size (R183, section 12.4). RESET FULL is
the row of a request that has its one argument (log entry 8). -/
def ownerArguments : List (Instr × Nat) :=
  [(.resetTraffic, 1), (.commit, 0), (.cancelCommit, 0), (.halt, 0), (.resume, 0), (.readCountersClear, 1), (.renew, 4),
    (.closeSession, 0)]

/-! ### Reset values -/

/-- Each config item has its power-on value of the table of R140; in that of the station address, the last four bits are the latched address
straps (R94). -/
def State.itemsAtPowerOn (s : State) : Prop :=
  s.config.stationAddress.toNat = 0x024D46000000 + s.straps.address.toNat
    ∧ s.config.managementType = 0x9C41
    ∧ s.config.trackerEnable = false ∧ s.config.cadencePort = .a
    ∧ s.config.depth = 4 ∧ s.config.window = 16 ∧ s.config.holdover = 3
    ∧ s.config.spanMin = 12500 ∧ s.config.spanMax = 12500000
    ∧ s.config.sequencerEnable = false ∧ s.config.freeGates.a = 0x1FF ∧ s.config.freeGates.b = 0x1FF
    ∧ s.config.syncOutEnable = true
    ∧ s.config.defaultAction = ⟨.forward, .fixed 0, .noMark⟩
    ∧ s.config.quotas.a = #v[48, 48, 48, 48, 48, 48, 48, 48, 16]
    ∧ s.config.quotas.b = #v[48, 48, 48, 48, 48, 48, 48, 48, 16]
    ∧ s.config.noticeEnable = 0x7F

/-- Every item of every block has the value its own table gives for reset (R1, R23, R38, R63, R81, R98, R116, R131, R140, R150, R173, R177),
part time is 0 and the outputs are low; the link states are apart. -/
def State.atPowerOn (s : State) : Prop :=
  s.time = 0 ∧ s.pins.lock = false ∧ s.pins.syncOut = false
    ∧ s.tracker = ⟨.off, [], 0, none, 0, 0, false, none⟩
    ∧ s.sequencer
        = ⟨.stopped, 0, 0, 0, 0, false, none, 0, none, none, ⟨⟨0x1FF, none⟩, ⟨0x1FF, none⟩⟩, none⟩
    ∧ s.programs.active = .bank0 ∧ s.programs.commitPending = false
    ∧ s.programs.bank0.header = ⟨1, Vector.replicate 4 0⟩ ∧ s.programs.bank1.header = ⟨1, Vector.replicate 4 0⟩
    ∧ (∀ i, s.programs.bank0.entry i = ⟨⟨0x1FF, 0x1FF⟩, false, .tail⟩
        ∧ s.programs.bank1.entry i = ⟨⟨0x1FF, 0x1FF⟩, false, .tail⟩)
    ∧ (∀ p, (s.port p).receiver = ⟨false, [], 0, false⟩
        ∧ (s.sched p).presentation = ⟨0x1FF, none⟩ ∧ (s.sched p).inFlight = none ∧ ∀ q, s.queue p q = ⟨[], 0, 0⟩)
    ∧ s.pool.freeRecords = List.finRange 256 ∧ s.pool.freeCells = List.finRange 512
    ∧ (∀ i, s.classifier.entry i = ⟨false, .either, 0, 0, none, 0, none, ⟨.discard, .fixed 0, .noMark⟩⟩
        ∧ s.classifier.hit i = 0)
    ∧ s.agent.fifo = [] ∧ s.agent.replay = none ∧ s.agent.session = ⟨false, 0, .a, 0, 30000, 0, 0, none⟩
    ∧ s.itemsAtPowerOn
    ∧ (∀ g, ∀ v ∈ groupValues s.counters g, v = 0)
    ∧ s.notices = ⟨[], 0, false⟩

/-! ### Bytes: the check sequence and the judgement of records -/

/-- The register of the check sequence takes one bit: it is shifted, and the generator polynomial is taken away when the bit that leaves differs
from the bit that comes (R85). -/
def checkShift (register : BitVec 32) (bit : Bool) : BitVec 32 :=
  if register.msb = bit then register <<< 1 else (register <<< 1) ^^^ 0x04C11DB7#32

/-- The register after the bytes: from all ones, each byte least significant bit first (R85). -/
def checkRegister (bytes : List Byte) : BitVec 32 :=
  bytes.foldl (fun r b => (List.range 8).foldl (fun r i => checkShift r (b.getLsbD i)) r) (BitVec.allOnes 32)

/-- The number of the first field that fails, among judgements in examination order, each a field number with whether that field fails (R184). -/
def firstFailing (judgements : List (Nat × Bool)) : Option Nat := (judgements.find? Prod.snd).map Prod.fst

/-! ### Frames from the line, and heads of queues -/

/-- A frame of 64 to 1,536 bytes without a receive error and with the right check sequence, received on a port that is receiving (R85). -/
def State.receivesGood (s : State) (p : Port) (frame : List Byte) : Prop :=
  s.inReset = false ∧ (s.port p).receiver.receiving = true ∧ (s.port p).receiver.damaged = false
    ∧ 64 ≤ frame.length ∧ frame.length ≤ 1536 ∧ checkPasses frame = true

/-- The good frame has been counted at its port (R86). -/
def State.goodCounted (s : State) (p : Port) (frame : List Byte) : State :=
  (stageBytes p frame false s).countPort p (fun c => { c with goodReceived := Count.up c.goodReceived })

/-- A queue is open, holds a record, and its head passes the guard check (R68, R69). -/
def State.headPasses (s : State) (p : Port) (q : QueueName) : Bool :=
  GateSet.opens (s.sched p).presentation.gates q
    && match (s.queue p q).records with
      | [] => false
      | h :: _ => guardPasses (s.sched p).presentation.limit s.time (s.recordTime p h)

/-- The heads that an evaluation passes over, in its order: those of the open queues that come before the first whose head passes (R68, R70). -/
def State.heldHeads (s : State) (p : Port) : List Handle :=
  ((priorityOrder.takeWhile (fun q => !s.headPasses p q)).filter
    (fun q => GateSet.opens (s.sched p).presentation.gates q)).filterMap (fun q => (s.queue p q).records.head?)

/-- The records among them whose guard-held flag is clear, each once (R70). -/
def State.newlyHeld (s : State) (p : Port) : List Handle :=
  ((s.heldHeads p).filter (fun h => !(s.record h).guardHeld)).dedup

/-! ### Properties that every step keeps -/

/-- The cells' memory is in its canonical form. -/
def State.cellsCanonical (s : State) : Prop := s.pool.memory.wf

/-- LOCK is high exactly while the tracker is LOCKED or HOLDOVER (R22). -/
def State.lockPinFollows (s : State) : Prop := s.pins.lock = s.tracker.state.isLocked

/-- SYNC_OUT is high exactly while a pulse-end wait is held (R60). -/
def State.syncOutFollows (s : State) : Prop := s.pins.syncOut = s.sequencer.pulseEnd.isSome

/-- The sequencer's and the scheduler's records of each port's presentation agree (R79). -/
def State.presentationsAgree (s : State) : Prop :=
  ∀ p, (s.sched p).presentation = s.sequencer.presentation.get p

/-- The request FIFO holds at most 4 requests (R100), the notice queue at most 8 notices (R177), and the history at most 16 spans, as many as
the capture count says (R2). -/
def State.capacitiesKept (s : State) : Prop :=
  s.agent.fifo.length ≤ 4 ∧ s.notices.records.length ≤ 8 ∧ s.tracker.history.length ≤ 16
    ∧ s.tracker.captures = s.tracker.history.length

/-- Without a session there is no lease wait, no replay record and no notice (R150, R155); with one, the lease wait is due at the lease expiry
time (R150). -/
def State.sessionSound (s : State) : Prop :=
  if s.agent.session.isOpen then s.agent.session.leaseWait = some s.agent.session.leaseExpiry
  else s.agent.session.leaseWait = none ∧ s.agent.replay = none ∧ s.notices.records = [] ∧ s.notices.loss = false

/-- Every config item lies in its range (R140), and the lease length in its own (R150). -/
def State.itemsInRange (s : State) : Prop := s.config.wellFormed = true ∧ s.agent.session.leaseInRange = true

/-- The active bank is well-formed (R24), the staged bank is while a commit is pending (R35), and no bank holds an illegal record (R27). -/
def State.programsSound (s : State) : Prop :=
  s.programs.activeBank.wellFormed = true
    ∧ (s.programs.commitPending = true → s.programs.stagedBank.wellFormed = true)
    ∧ s.programs.bank0.entriesLegal = true ∧ s.programs.bank1.entriesLegal = true

/-- A commit is pending only while the sequencer is RUNNING, HALTED or REJOINING (R35), and it is in one of those only while the tracker is
LOCKED or HOLDOVER (R16). -/
def State.followsLock (s : State) : Prop :=
  (s.programs.commitPending = true → s.sequencer.state.follows = true)
    ∧ (s.sequencer.state.follows = true → s.tracker.state.isLocked = true)

/-- The tracker without a history: the history empty, ref undefined, m 0, the flag clear, no wait (R2, R3, R4). -/
def Tracker.isBlank (t : Tracker) : Prop :=
  t.history = [] ∧ t.captures = 0 ∧ t.ref = none ∧ t.missing = 0 ∧ t.synthesised = false ∧ t.wait = none

/-- The history: as many spans as captured, each between SPAN_MIN and SPAN_MAX (R2). -/
def Tracker.historySound (t : Tracker) (c : ConfigItems) : Prop :=
  t.captures = t.history.length ∧ ∀ span ∈ t.history, c.spanMin ≤ span ∧ span ≤ c.spanMax

/-- Under lock: at least N spans stand in the history, ref is defined, between SPAN_MIN and SPAN_MAX, and the window close is timed by it (R3,
R10). -/
def Tracker.refSound (t : Tracker) (c : ConfigItems) : Prop :=
  c.depth ≤ t.history.length
    ∧ ∃ ref, t.ref = some ref ∧ c.spanMin ≤ ref ∧ ref ≤ c.spanMax ∧ t.wait = windowWait t.boundary ref c.window

/-- The items of the tracker agree with its state as the table of section 1.2, R3 and R4 say. -/
def Tracker.soundUnder (t : Tracker) (c : ConfigItems) : Prop :=
  match t.state with
  | .off => t.isBlank
  | .seeking => t.isBlank
  | .acquiring =>
    t.captures < c.depth ∧ t.ref = none ∧ t.missing = 0 ∧ t.synthesised = false
      ∧ t.wait = some (.acquireTimeout (Time.plus t.boundary c.spanMax))
  | .locked => t.missing = 0 ∧ t.synthesised = false ∧ t.refSound c
  | .holdover => 1 ≤ t.missing ∧ t.missing ≤ c.holdover ∧ t.synthesised = true ∧ t.refSound c

/-- An acquire timeout is not overdue (R8, R9, R93): in ACQUIRING part time has not passed B + SPAN_MAX, and when it has reached it the timeout
is still to be taken: not yet handed out, or waiting in the queue. -/
def State.acquiresInTime (s : State) : Prop :=
  s.tracker.state = .acquiring →
    (s.time - s.tracker.boundary).toNat ≤ s.config.spanMax
      ∧ ((s.time - s.tracker.boundary).toNat = s.config.spanMax → .acquireTimeout ∉ s.handed ∨ .acquireTimeout ∈ s.pending)

/-- The tracker's items agree with its state (section 1.2), its history is sound, no acquire timeout is overdue, and with the enable off it is OFF,
with it on it is not (R5, R6). -/
def State.trackerSound (s : State) : Prop :=
  s.tracker.soundUnder s.config ∧ s.tracker.historySound s.config ∧ s.acquiresInTime
    ∧ (s.tracker.state = .off ↔ s.config.trackerEnable = false)

/-- No walk is timed: no deadline, no settle due, no pending transition, the flag clear (R38, R39). -/
def Sequencer.isUntimed (q : Sequencer) : Prop :=
  q.deadline = none ∧ q.settle = none ∧ q.pending = none ∧ q.stepSeen = false

/-- A walk in RUNNING: E, the deadline and the settle due are those of the current entry, and a pending transition stands in a STEP entry
(R39, R47, R51). -/
def State.walkTimed (s : State) : Prop :=
  s.sequencer.endTime = entryEndTime s.sequencer.origin s.sequencer.span s.currentEntry.ending
    ∧ s.sequencer.deadline = entryDeadlineOf s.currentEntry.ending s.sequencer.endTime
    ∧ s.sequencer.settle = s.sequencer.pending.map Transition.due
    ∧ (s.sequencer.pending.isSome = true →
        ∃ off settle next, s.currentEntry.ending = .step off settle next
          ∧ ∀ t, s.sequencer.pending = some t → t.target = next)

/-- What the sequencer presents and the waits it holds are those of its state (R39); it is STOPPED exactly while its enable is off (R42). -/
def State.sequencerSound (s : State) : Prop :=
  (s.sequencer.state = .stopped ↔ s.config.sequencerEnable = false)
    ∧ match s.sequencer.state with
      | .stopped => s.sequencer.isUntimed ∧ s.sequencer.presentation = freePresentation s
      | .free => s.sequencer.isUntimed ∧ s.sequencer.presentation = freePresentation s
      | .running => s.walkTimed ∧ s.sequencer.presentation = runningPresentation s
      | .halted =>
        s.sequencer.isUntimed ∧ s.sequencer.presentation = ⟨⟨s.currentEntry.gates.a, none⟩, ⟨s.currentEntry.gates.b, none⟩⟩
      | .rejoining =>
        s.sequencer.isUntimed ∧ s.sequencer.presentation = ⟨⟨s.currentEntry.gates.a, none⟩, ⟨s.currentEntry.gates.b, none⟩⟩

/-- A port that is DOWN neither receives nor transmits (R89). -/
def State.downPortsQuiet (s : State) : Prop :=
  ∀ p, (s.port p).link = .down → (s.port p).receiver = Receiver.idle ∧ (s.sched p).inFlight = none

/-- The records in the queues of a port, in the order of the queue names. -/
def State.queuedRecords (s : State) (p : Port) : List Handle := (s.sched p).queues.toList.flatMap Queue.records

/-- The records in the queues of a port in the order of a flush: queue M, then 7 to 0, each from the front (R126). -/
def State.flushOrder (s : State) (p : Port) : List Handle := priorityOrder.flatMap (fun q => (s.queue p q).records)

/-- The record in a port's transmitter, if any. -/
def State.inFlightRecord (s : State) (p : Port) : List Handle := ((s.sched p).inFlight.map InFlight.record).toList

/-- The records that are not free: in a queue or in a transmitter (R118). -/
def State.heldRecords (s : State) : List Handle :=
  s.queuedRecords .a ++ s.queuedRecords .b ++ s.inFlightRecord .a ++ s.inFlightRecord .b

/-- Each record is in exactly one place (R118), each cell is free or on the cell list of one held record (R117), the counts of each queue are
exact (R119), and each held record names its queue and has the cells its length needs (R117, R118). -/
def State.poolWhole (s : State) : Prop :=
  (s.pool.freeRecords ++ s.heldRecords).Perm (List.finRange 256)
    ∧ (s.pool.freeCells ++ s.heldRecords.flatMap (fun h => (s.record h).cells)).Perm (List.finRange 512)
    ∧ (∀ p q, (s.queue p q).frames = (s.queue p q).records.length
        ∧ (s.queue p q).cells = ((s.queue p q).records.map (fun h => (s.record h).cells.length)).sum)
    ∧ (∀ p q, ∀ h ∈ (s.queue p q).records, (s.record h).port = p ∧ (s.record h).queue = q)
    ∧ (∀ p, ∀ h ∈ s.inFlightRecord p, (s.record h).port = p)
    ∧ (∀ h ∈ s.heldRecords, (s.record h).cells.length = cellsNeeded (s.record h).length)

/-- While RESET_N is low every item of every block has its power-on value (R95). -/
def State.resetHeld (s : State) : Prop :=
  s.inReset = true → s = State.powerOn s.straps false s.pins.phy s.tieCount s.pending

end Sys2Proof.Machine
end

