-- ==== Sys2Proof/Certificates/Slice0/Obligations.lean ====
section
/-! DEFINITION. The statements for the provers, each from the rules its docstring cites. -/

open Sys2Proof Sys2Proof.Machine

/-! ### Steps and time -/

/-- A step takes the command at the front of the queue and runs it on the state with the queue's rest. -/
def Obligations.StepRunsFrontCommand : Prop :=
  ∀ (c : Instr) (s : State) (rest : List Instr),
    step { s with pending := c :: rest } = exec c { s with pending := rest }

/-- R92, R93, R132 (that time passes in moves on an empty queue is the model's form, log entry 1; which of several events comes first is a free
value, log entry 3). At a service moment with the FIFO empty the agent is done with the moment. Else one event of the present part time that has
not been handed out joins the queue; with none left part time rises by one. The events of a part time are the expiries of the waits that are due
then and, at a multiple of 1,024, the taking of the oldest request. -/
def Obligations.TickHandsOutDueEvents : Prop :=
  ∀ s : State, s.pending = [] → s.inReset = false →
    (s.time.toNat % 1024 = 0 ∧ s.agent.serviced = false ∧ s.agent.fifo = [] →
      step s = .next { s with agent := { s.agent with serviced := true } })
    ∧ (¬(s.time.toNat % 1024 = 0 ∧ s.agent.serviced = false ∧ s.agent.fifo = []) →
      ((∀ e ∈ dueEvents s, e ∈ s.handed) →
        step s = .next { s with time := s.time + 1, agent := { s.agent with serviced := false }, handed := [] })
      ∧ ((∃ e ∈ dueEvents s, e ∉ s.handed) →
        ∃ e k, e ∈ dueEvents s ∧ e ∉ s.handed
          ∧ step s = .next { s with pending := [e], handed := e :: s.handed, tieCount := k }))
    ∧ (.acquireTimeout ∈ dueEvents s ↔ s.tracker.wait = some (.acquireTimeout s.time))
    ∧ (.windowClose ∈ dueEvents s ↔ s.tracker.wait = some (.windowClose s.time))
    ∧ (.entryDeadline ∈ dueEvents s ↔ s.sequencer.deadline = some s.time)
    ∧ (.settleDue ∈ dueEvents s ↔ s.sequencer.settle = some s.time)
    ∧ (.syncOutPulseEnd ∈ dueEvents s ↔ s.sequencer.pulseEnd = some s.time)
    ∧ (∀ p, .transmissionCompletion p ∈ dueEvents s ↔ ∃ f, (s.sched p).inFlight = some f ∧ f.due = s.time)
    ∧ (.leaseExpiry ∈ dueEvents s ↔ s.agent.session.leaseWait = some s.time)
    ∧ (∀ slot rest, s.agent.fifo = slot :: rest →
        (slotRow slot ∈ dueEvents s ↔ s.agent.serviced = false ∧ s.time.toNat % 1024 = 0))
    ∧ (∀ e ∈ dueEvents s,
        e ∈ [.acquireTimeout, .windowClose, .entryDeadline, .settleDue, .syncOutPulseEnd, .transmissionCompletion .a,
          .transmissionCompletion .b, .leaseExpiry]
        ∨ ∃ slot rest, s.agent.fifo = slot :: rest ∧ e = slotRow slot)

/-- R95: while RESET_N is low part time does not count, and no event but those of the reset pin and of the PHY's link indication pins changes
anything. The model's reading (log entry 15): what a command does then, LINK_UP and LINK_DOWN changing the port's PHY indication pin alone; and that
RESET_N_RELEASE with RESET_N high has no effect. -/
def Obligations.HeldInReset : Prop :=
  ∀ s : State,
    (s.inReset = true →
      (s.pending = [] → step s = .next s)
      ∧ (∀ c : Instr, c ≠ .resetNAssert → (∀ straps, c ≠ .resetNRelease straps) → (∀ p, c ≠ .linkUp p) →
          (∀ p, c ≠ .linkDown p) → exec c s = .next s)
      ∧ ∀ p, exec (.linkUp p) s = .next { s with pins := { s.pins with phy := s.pins.phy.set p .up } }
        ∧ exec (.linkDown p) s = .next { s with pins := { s.pins with phy := s.pins.phy.set p .down } })
    ∧ (s.inReset = false → ∀ straps, exec (.resetNRelease straps) s = .next s)

/-! ### Resets -/

/-- The state after reset holds every item at the value its table gives (the straps, the pin levels and the link indications are the model's
choice, log entry 4), both ports are DOWN, and it has every property that the steps keep. -/
def Obligations.ResetStateSound : Prop :=
  State.reset.atPowerOn ∧ (∀ p, (State.reset.port p).link = .down) ∧ State.reset.pins.resetN = true
    ∧ State.reset.pending = [] ∧ State.reset.cellsCanonical ∧ State.reset.lockPinFollows ∧ State.reset.syncOutFollows
    ∧ State.reset.presentationsAgree ∧ State.reset.capacitiesKept ∧ State.reset.sessionSound ∧ State.reset.itemsInRange
    ∧ State.reset.programsSound ∧ State.reset.followsLock ∧ State.reset.trackerSound ∧ State.reset.sequencerSound
    ∧ State.reset.downPortsQuiet ∧ State.reset.poolWhole ∧ State.reset.resetHeld

/-- R95, R87: RESET_N driven low sets every item to its power-on value, both ports DOWN, part time 0, the outputs low, from any state; the
latched straps stand (R82). -/
def Obligations.ResetAssertClears : Prop :=
  ∀ s : State, ∃ t, exec .resetNAssert s = .next t ∧ t.atPowerOn ∧ (∀ p, (t.port p).link = .down)
    ∧ t.pins.resetN = false ∧ t.straps = s.straps ∧ t.pins.phy = s.pins.phy ∧ t.pending = s.pending

/-- R82, R88, R94, R95: the release of RESET_N latches the straps, each port's speed being that of its own strap, leaves every item at its power-on
value at part time 0, and each port's link state is what its PHY indicates. -/
def Obligations.ResetReleaseSamples : Prop :=
  ∀ (straps : Straps) (s : State), s.inReset = true →
    ∃ t, exec (.resetNRelease straps) s = .next t ∧ t.atPowerOn ∧ t.straps = straps ∧ t.pins.resetN = true
      ∧ t.speed .a = straps.speedA ∧ t.speed .b = straps.speedB
      ∧ t.pins.phy = s.pins.phy ∧ (∀ p, (t.port p).link = s.pins.phy.get p) ∧ t.pending = s.pending
      ∧ t.config.stationAddress.toNat = 0x024D46000000 + t.straps.address.toNat

/-- R147, R92, R88: RESET kind FULL in the owner's hands has the effects of RESET_N without sampling the straps; no response is built, and
every counter is 0. -/
def Obligations.FullResetClears : Prop :=
  ∀ (s : State) (slot : Slot) (rest : List Slot), s.serves .resetFull slot rest → s.ownersNext (requestOf slot) →
    ∃ t, exec .resetFull s = .next t ∧ t.atPowerOn ∧ t.straps = s.straps ∧ t.pins.resetN = true
      ∧ t.speed .a = s.straps.speedA ∧ t.speed .b = s.straps.speedB
      ∧ t.pins.phy = s.pins.phy ∧ (∀ p, (t.port p).link = s.pins.phy.get p) ∧ t.pending = s.pending
      ∧ t.config.stationAddress.toNat = 0x024D46000000 + t.straps.address.toNat

/-- R146, R17, R126, R16, R59: RESET of an illegal kind is refused with BAD_VALUE and resets nothing (its row is the model's choice, log entry 8).
RESET kind TRAFFIC aborts both transmitters and flushes every queue. It leaves a tracker that is OFF, SEEKING or not enabled, returns an enabled
tracker from ACQUIRING to SEEKING, and from LOCKED or HOLDOVER is a lock loss: LOCK low, the loss counted, a program left for FREE with a pending
commit applied and a pending transition counted as a settle cancel (R52), LOCK_LOST with TRAFFIC_RESET raised and then COMMIT_DONE. It keeps the
Match Table, the config items, the session, the link states, the receivers and part time. The records join the free-record list in the order of the
aborts and the flush, and each record's cells the free-cell list, in the order of its cell list; that port A's abort comes first is the model's
choice (log entry 22). -/
def Obligations.TrafficResetClearsTraffic : Prop :=
  ∀ (s : State) (slot : Slot) (rest : List Slot) (r : Request), s.serves .resetTraffic slot rest → r = requestOf slot →
    s.ownersNext r →
    (∀ kind, r.args = [kind] → kind ≠ 0 →
      executes .resetTraffic s r (Answer.badArgument .badValue) (s.owned rest))
    ∧ (r.args = [0] →
      ∃ x u, executes .resetTraffic s r (Answer.okay []) u
        ∧ (s.owned rest).sameButTraffic x
        ∧ (∀ p, x.sched p = { s.sched p with inFlight := none, queues := (x.sched p).queues } ∧ ∀ q, x.queue p q = Queue.empty)
        ∧ x.pool.freeRecords = s.pool.freeRecords ++ s.inFlightRecord .a ++ s.inFlightRecord .b
            ++ s.flushOrder .a ++ s.flushOrder .b
        ∧ (s.poolWhole → x.pool.freeCells = s.pool.freeCells
            ++ (s.inFlightRecord .a ++ s.inFlightRecord .b ++ s.flushOrder .a ++ s.flushOrder .b).flatMap
              (fun h => (s.record h).cells))
        ∧ x.pool.memory = s.pool.memory
        ∧ x.counters = { s.counters with queues := x.counters.queues }
        ∧ (s.config.trackerEnable = false ∨ s.tracker.state = .off ∨ s.tracker.state = .seeking → u = x)
        ∧ (s.config.trackerEnable = true → s.tracker.state = .acquiring →
            u = { x with tracker := s.tracker.cleared .seeking })
        ∧ (s.config.trackerEnable = true → s.tracker.state.isLocked = true → u = lockLoss .trafficReset x)
        ∧ (s.owned rest).sameButCadence u
        ∧ (∀ p q, q ≠ queueM → u.queue p q = Queue.empty)
        ∧ (s.poolWhole → ∀ p q, ((u.counters.queues.get p)[q]).flushed
            = Count.upBy ((s.queue p q).records.length
                + ((s.inFlightRecord p).filter (fun h => (s.record h).queue == q)).length)
              ((s.counters.queues.get p)[q]).flushed)
        ∧ (s.config.trackerEnable = false ∨ s.tracker.state.isLocked = false →
            s.sequencer = u.sequencer ∧ s.programs = u.programs ∧ s.pins = u.pins ∧ s.notices = u.notices
              ∧ s.counters.tracker = u.counters.tracker
              ∧ ∀ p, (u.sched p).inFlight = none ∧ u.queue p queueM = Queue.empty)
        ∧ (s.config.trackerEnable = false ∨ s.tracker.state = .off ∨ s.tracker.state = .seeking → u.tracker = s.tracker)
        ∧ (s.config.trackerEnable = true → s.tracker.state = .acquiring ∨ s.tracker.state.isLocked = true →
            u.tracker = s.tracker.cleared .seeking)
        ∧ (s.config.trackerEnable = true → s.tracker.state.isLocked = true →
            u.pins = { s.pins with lock := false }
              ∧ u.counters.tracker = { s.counters.tracker with lockLosses := Count.up s.counters.tracker.lockLosses }
              ∧ u.counters.sequencer = s.lossCounters
              ∧ u.sequencer = s.lossSequencer ∧ u.programs = s.lossPrograms
              ∧ (s.owned rest).raises s.lossCycle (s.lossNotices .trafficReset) u))

/-! ### Line ports -/

/-- R90, R88: on a port that is DOWN, an indication of UP sets the link state UP, the scheduler evaluates under the presentation it holds, and
LINK_CHANGE is raised with the port and UP; the receiver is idle, the tracker and everything else stand. R90 does not order the evaluation and the
offer of the notice; that the evaluation comes first is the model's choice (log entry 16). On a port that is UP it is no event (R88). -/
def Obligations.LinkUpTaken : Prop :=
  ∀ (p : Port) (s : State), s.inReset = false →
    ((s.port p).link = .down →
      ∃ t, exec (.linkUp p) s = .next t
        ∧ t = raiseNotice (.linkChange p .up) s.sequencer.cycle (evaluate p ((s.setPhy p .up).setLink p .up))
        ∧ ((s.setPhy p .up).setLink p .up).sameButNotices t
        ∧ (s.downPortsQuiet → t.port p = ⟨.up, Receiver.idle⟩)
        ∧ (s.agent.session.isOpen = false → t = evaluate p ((s.setPhy p .up).setLink p .up)))
    ∧ ((s.port p).link = .up → exec (.linkUp p) s = .next (s.setPhy p .up))

/-- R89, R88, R17, R75, R125, R126, R16, R59: link down empties the receiver, aborts the transmitter (counted once as a link discard), flushes the
port's queues (counted record by record; the records and their cells join the free lists in that order), reaches the tracker on the cadence port
alone, and raises LINK_CHANGE with the port and DOWN, last of all. From LOCKED or HOLDOVER there it is a lock loss: counted, LOCK low, a program
left for FREE with a pending commit applied and a pending transition counted as a settle cancel (R52), LOCK_LOST with LINK_DOWN and then COMMIT_DONE
raised first. The other port's queues and transmitter stand, but for what a lock loss or a notice brings there. The port's class queues are empty
afterwards; M is too without a session and with the owner on the other port, and otherwise holds no frame but those of notices. On a port that is
DOWN it is no event. -/
def Obligations.LinkDownTaken : Prop :=
  ∀ (p : Port) (s : State), s.inReset = false →
    ((s.port p).link = .up →
      ∀ emptied, emptied = (s.setPhy p .down).setPort p ⟨.down, Receiver.idle⟩ →
      ∃ x u t, exec (.linkDown p) s = .next t
        ∧ emptied.sameButTraffic x
        ∧ x.sched p = { s.sched p with inFlight := none, queues := (x.sched p).queues }
        ∧ (∀ q, x.queue p q = Queue.empty)
        ∧ x.sched p.opposite = s.sched p.opposite
        ∧ x.pool.freeRecords = s.pool.freeRecords ++ s.inFlightRecord p ++ s.flushOrder p
        ∧ (s.poolWhole → x.pool.freeCells = s.pool.freeCells
            ++ (s.inFlightRecord p ++ s.flushOrder p).flatMap (fun h => (s.record h).cells))
        ∧ x.pool.memory = s.pool.memory
        ∧ x.counters = { s.counters with ports := x.counters.ports, queues := x.counters.queues }
        ∧ x.counters.ports.get p.opposite = s.counters.ports.get p.opposite
        ∧ x.counters.queues.get p.opposite = s.counters.queues.get p.opposite
        ∧ (p ≠ s.config.cadencePort ∨ s.tracker.state = .off ∨ s.tracker.state = .seeking → u = x)
        ∧ (p = s.config.cadencePort → s.tracker.state = .acquiring → u = { x with tracker := s.tracker.cleared .seeking })
        ∧ (p = s.config.cadencePort → s.tracker.state.isLocked = true → u = lockLoss .linkDown x)
        ∧ t = raiseNotice (.linkChange p .down) u.sequencer.cycle u
        ∧ emptied.sameButCadence t
        ∧ (t.sched p).inFlight = none
        ∧ (∀ q, q ≠ queueM → t.queue p q = Queue.empty)
        ∧ (s.agent.session.isOpen = false ∨ s.agent.session.ownerPort ≠ p → t.queue p queueM = Queue.empty)
        ∧ (∀ h ∈ (t.queue p queueM).records, (t.record h).length = 64)
        ∧ (s.poolWhole → ∀ h ∈ (t.queue p queueM).records,
            ∃ y n, emptied.sameButCadence y ∧ t.frameBytes h = noticeFrame y n)
        ∧ (p ≠ s.config.cadencePort ∨ s.tracker.state.isLocked = false →
            s.agent.session.isOpen = false ∨ s.agent.session.ownerPort = p → t.sched p.opposite = s.sched p.opposite)
        ∧ (t.counters.ports.get p).linkDiscards
            = (if (s.sched p).inFlight.isSome then Count.up (s.counters.ports.get p).linkDiscards
              else (s.counters.ports.get p).linkDiscards)
        ∧ (∀ q, ((t.counters.queues.get p)[q]).flushed
            = Count.upBy (s.queue p q).records.length ((s.counters.queues.get p)[q]).flushed)
        ∧ (p ≠ s.config.cadencePort ∨ s.tracker.state.isLocked = false →
            t.sequencer = s.sequencer ∧ t.programs = s.programs ∧ t.pins.lock = s.pins.lock
              ∧ t.counters.tracker = s.counters.tracker ∧ t.counters.sequencer = s.counters.sequencer
              ∧ emptied.raises s.sequencer.cycle [.linkChange p .down] t)
        ∧ (p ≠ s.config.cadencePort ∨ s.tracker.state = .off ∨ s.tracker.state = .seeking → t.tracker = s.tracker)
        ∧ (p = s.config.cadencePort → s.tracker.state = .acquiring ∨ s.tracker.state.isLocked = true →
            t.tracker = s.tracker.cleared .seeking)
        ∧ (p = s.config.cadencePort → s.tracker.state.isLocked = true →
            t.pins.lock = false
              ∧ t.counters.tracker = { s.counters.tracker with lockLosses := Count.up s.counters.tracker.lockLosses }
              ∧ t.counters.sequencer = s.lossCounters
              ∧ t.sequencer = s.lossSequencer ∧ t.programs = s.lossPrograms
              ∧ emptied.raises s.lossCycle (s.lossNotices .linkDown ++ [.linkChange p .down]) t))
    ∧ ((s.port p).link = .down → exec (.linkDown p) s = .next (s.setPhy p .down))

/-- R85: the check sequence in the last four bytes of a frame: the register starts at all ones, takes the bytes before them, each least significant
bit first, through the polynomial 0x04C11DB7, and is complemented; that it is read with its bits reversed, and most significant byte first, is the
model's reading (log entry 6, DEDUCED). R84: a start delimiter on a port that is UP with an idle receiver begins a reception with nothing counted,
stored or damaged; on a port that is DOWN it is not taken. R85: a runt, a giant and a frame with a receive error or a wrong check sequence are each
counted once, in this order of judgement, and lost; the receiver becomes idle and nothing else changes. Without a reception there is nothing to
complete (R87). -/
def Obligations.ReceptionsAndBadFrames : Prop :=
  ((∀ (register : BitVec 32) (bit : Bool), checkShift register bit
        = if register.msb = bit then register <<< 1 else (register <<< 1) ^^^ 0x04C11DB7#32)
    ∧ checkRegister [] = BitVec.allOnes 32
    ∧ (∀ (bytes : List Byte) (b : Byte), checkRegister (bytes ++ [b])
        = [b.getLsbD 0, b.getLsbD 1, b.getLsbD 2, b.getLsbD 3, b.getLsbD 4, b.getLsbD 5, b.getLsbD 6, b.getLsbD 7].foldl
            checkShift (checkRegister bytes))
    ∧ ∀ covered sequence : List Byte, sequence.length = 4 →
        (checkPasses (covered ++ sequence) = true
          ↔ sequence = bigEndian 4 (~~~(checkRegister covered)).reverse.toNat))
  ∧ (∀ (p : Port) (s : State), s.inReset = false →
      ((s.port p).link = .up → (s.port p).receiver.receiving = false →
        exec (.receptionStart p) s = .next (s.setPort p ⟨.up, ⟨true, [], 0, false⟩⟩))
      ∧ ((s.port p).link = .down → exec (.receptionStart p) s = .next s))
  ∧ (∀ (p : Port) (frame : List Byte) (err : Bool) (s : State), s.inReset = false →
      ((s.port p).receiver.receiving = true →
        (frame.length < 64 →
          exec (.receptionCompletion p frame err) s = .next ((s.setPort p ⟨(s.port p).link, Receiver.idle⟩).countPort p
            (fun c => { c with runts := Count.up c.runts })))
        ∧ (1536 < frame.length →
          exec (.receptionCompletion p frame err) s = .next ((s.setPort p ⟨(s.port p).link, Receiver.idle⟩).countPort p
            (fun c => { c with giants := Count.up c.giants })))
        ∧ (64 ≤ frame.length → frame.length ≤ 1536 →
          ((s.port p).receiver.damaged = true ∨ err = true ∨ checkPasses frame = false) →
          exec (.receptionCompletion p frame err) s = .next ((s.setPort p ⟨(s.port p).link, Receiver.idle⟩).countPort p
            (fun c => { c with checkErrors := Count.up c.checkErrors }))))
      ∧ ((s.port p).receiver.receiving = false → exec (.receptionCompletion p frame err) s = .next s))

/-- R86, R99, R100: a good frame to the station address with the management type joins the back of the request FIFO, or is dropped and counted
at a full one, and reaches nothing else. -/
def Obligations.ManagementFrameQueued : Prop :=
  ∀ (p : Port) (frame : List Byte) (s : State), s.receivesGood p frame →
    (frameFields frame).destination = s.config.stationAddress →
    (frameFields frame).etherType = s.config.managementType →
    exec (.receptionCompletion p frame false) s = .next (releaseReceiver p
      (if s.agent.fifo.length < 4 then
        { s.goodCounted p frame with
          agent := { s.agent with
            fifo := s.agent.fifo ++ [⟨frame, frame.length, (frameFields frame).source, p, s.time⟩] } }
      else (s.goodCounted p frame).countAgent (fun c => { c with fifoOverflows := Count.up c.fifoOverflows })))

/-- R86, R105, R107, R109: a good frame that is no management frame is governed by the first entry it matches, which counts a hit, or by the
default action; its mark is delivered, and then it is offered to the queue of its class at the opposite port, or left. -/
def Obligations.OrdinaryFrameClassified : Prop :=
  ∀ (p : Port) (frame : List Byte) (s : State), s.receivesGood p frame →
    ¬((frameFields frame).destination = s.config.stationAddress
      ∧ (frameFields frame).etherType = s.config.managementType) →
    ∃ (a : Action) (hits : Vector Count 64),
      (match governing s.classifier p (frameFields frame) with
        | some i => a = (s.classifier.entry i).action ∧ hits = s.classifier.hits.set i (Count.up (s.classifier.hit i))
        | none => a = s.config.defaultAction ∧ hits = s.classifier.hits)
      ∧ exec (.receptionCompletion p frame false) s = .next (releaseReceiver p
          (match a.disposition with
            | .forward => offerForwarded p.opposite (frameClass a.classChoice (frameFields frame)) frame
                (deliverMark a.mark p { s.goodCounted p frame with classifier := ⟨s.classifier.entries, hits⟩ })
            | .discard => deliverMark a.mark p { s.goodCounted p frame with classifier := ⟨s.classifier.entries, hits⟩ }))

/-- R103: the entry that governs a frame is the first valid entry it matches in index order; with none, no entry governs. R102: the conditions of a
match. R83: the fields read from the bytes of a frame: the addresses, the tag when the two bytes after the source address hold 0x8100 (the priority
its three most significant bits, the VLAN id its twelve least), the type after the addresses or after the tag, and the payload after the type. -/
def Obligations.MatchAndGoverningEntry : Prop :=
  (∀ (bytes : List Byte) (field : Nat → Nat → Nat), (∀ off n, field off n = numberOf ((bytes.drop off).take n)) →
      (frameFields bytes).destination.toNat = field 0 6
      ∧ (frameFields bytes).source.toNat = field 6 6
      ∧ (field 12 2 = 0x8100 → ∃ priority vlan, (frameFields bytes).tag = some (priority, vlan)
          ∧ priority.val = field 14 2 / 2 ^ 13 ∧ vlan.toNat = field 14 2 % 2 ^ 12
          ∧ (frameFields bytes).etherType.toNat = field 16 2 ∧ (frameFields bytes).payloadAt = 18)
      ∧ (field 12 2 ≠ 0x8100 → (frameFields bytes).tag = none
          ∧ (frameFields bytes).etherType.toNat = field 12 2 ∧ (frameFields bytes).payloadAt = 14))
  ∧ (∀ (c : Classifier) (p : Port) (f : FrameFields),
      (∀ i, governing c p f = some i ↔
          (c.entry i).matches p f = true ∧ ∀ j : MatchIndex, j < i → (c.entry j).matches p f = false)
        ∧ (governing c p f = none ↔ ∀ i, (c.entry i).matches p f = false))
  ∧ (∀ (e : MatchEntry) (p : Port) (f : FrameFields),
      e.matches p f = true ↔
        e.valid = true
        ∧ (e.ingress = .either ∨ (e.ingress = .portA ∧ p = .a) ∨ (e.ingress = .portB ∧ p = .b))
        ∧ (∀ i < 48, e.mask.getLsbD i = true → f.destination.getLsbD i = e.value.getLsbD i)
        ∧ (e.etherType = none ∨ e.etherType = some f.etherType)
        ∧ (match f.tag with
            | some t => e.priorities.getLsbD t.1.val = true
            | none => e.priorities.getLsbD 8 = true)
        ∧ (e.vlan = none ∨ ∃ t, f.tag = some t ∧ e.vlan = some t.2))

/-- R106, R108: the class of a frame by its governing class; a mark kind NONE delivers nothing, a mark from the port that is not the cadence
port is counted and not delivered, and one from the cadence port goes to the tracker or the sequencer with the arrival time. -/
def Obligations.ClassAndMark : Prop :=
  (∀ (f : FrameFields) (k : Fin 8), (frameClass (.fixed k) f).val = k.val)
    ∧ (∀ (f : FrameFields) (t : Fin 8 × BitVec 12), f.tag = some t → (frameClass .fromPriority f).val = t.1.val)
    ∧ (∀ f : FrameFields, f.tag = none → frameClass .fromPriority f = 0)
    ∧ ∀ (p : Port) (s : State),
        deliverMark .noMark p s = s
        ∧ (p ≠ s.config.cadencePort → ∀ k, k ≠ .noMark →
            deliverMark k p s = s.countTracker (fun c => { c with offPortMarks := Count.up c.offPortMarks }))
        ∧ (p = s.config.cadencePort →
            deliverMark .cycle p s = takeCycleMark s.time s ∧ deliverMark .step p s = takeStepMark s.time s)

/-! ### Schedulers and transmitters -/

/-- R67 to R70, R72, R124: with the transmitter idle and the link UP, an evaluation starts the head of the first queue in the order M, 7 to 0 that
is open, holds a record and whose head passes the guard; with none it starts nothing. The heads of the open queues before it are flagged, and those
whose flag was clear are counted as guard holds; the pool and its bytes stand. Otherwise the evaluation is not made. R182: a gate set names queue i
by its bit i for i from 0 to 7, and M by bit 8; the order is written out. -/
def Obligations.EvaluationStartsFirstPassingHead : Prop :=
  (priorityOrder = [8, 7, 6, 5, 4, 3, 2, 1, 0] ∧ queueM = 8 ∧ ∀ (g : GateSet) (q : QueueName), GateSet.opens g q = g.getLsbD q.val)
  ∧ ∀ (p : Port) (s : State),
    ((s.sched p).inFlight = none → (s.port p).link = .up →
      s.sameButTraffic (evaluate p s)
        ∧ (evaluate p s).sched p.opposite = s.sched p.opposite
        ∧ ((evaluate p s).sched p).presentation = (s.sched p).presentation
        ∧ (evaluate p s).pool = { s.pool with records := (evaluate p s).pool.records }
        ∧ (∀ h, (evaluate p s).record h
            = { s.record h with guardHeld := (s.record h).guardHeld || (s.heldHeads p).contains h })
        ∧ (evaluate p s).counters = (s.countPort p (fun c =>
            { c with guardHolds := Count.upBy (s.newlyHeld p).length c.guardHolds })).counters
        ∧ match priorityOrder.find? (fun q => s.headPasses p q) with
          | some q =>
            ∃ h rest, (s.queue p q).records = h :: rest
              ∧ ((evaluate p s).sched p).inFlight
                  = some ⟨h, s.time, Time.plus s.time (((s.record h).length + 20) * ticksPerByte (s.speed p)), false⟩
              ∧ (evaluate p s).queue p q
                  = ⟨rest, (s.queue p q).frames - 1, (s.queue p q).cells - (s.record h).cells.length⟩
              ∧ ∀ u, u ≠ q → (evaluate p s).queue p u = s.queue p u
          | none => ((evaluate p s).sched p).inFlight = none ∧ ∀ u, (evaluate p s).queue p u = s.queue p u)
    ∧ ((s.sched p).inFlight ≠ none ∨ (s.port p).link = .down → evaluate p s = s)

/-- R92: a time is after another when their difference, modulo 2^48, lies between 1 and 2^47 - 1. R73: the transmission time of a record is its
length plus 20, times the factor of the port's speed, 1 at 1000 Mb/s and 10 at 100 Mb/s. R69: the guard check. With no limit every head passes; with
a limit G a head with transmission time D passes exactly when the moment plus D is not after G. R70: the first time a head is passed over its flag
is set and a guard hold is counted; a flagged head is passed over without a count. -/
def Obligations.GuardedHeads : Prop :=
  ((∀ a b : Time, Time.after a b = true
        ↔ 1 ≤ (a.toNat + 2 ^ 48 - b.toNat) % 2 ^ 48 ∧ (a.toNat + 2 ^ 48 - b.toNat) % 2 ^ 48 ≤ 2 ^ 47 - 1)
    ∧ (∀ (m : Time) (d : Nat), (Time.plus m d).toNat = (m.toNat + d) % 2 ^ 48)
    ∧ ∀ (p : Port) (h : Handle) (s : State),
        (s.speed p = .mbps1000 → s.recordTime p h = ((s.record h).length + 20) * 1)
        ∧ (s.speed p = .mbps100 → s.recordTime p h = ((s.record h).length + 20) * 10))
  ∧ ((∀ (m : Time) (d : Nat), guardPasses none m d = true)
      ∧ ∀ (g m : Time) (d : Nat), guardPasses (some g) m d = true ↔ Time.after (Time.plus m d) g = false)
  ∧ (∀ (p : Port) (h : Handle) (s : State),
      ((s.record h).guardHeld = false →
        holdHead p h s = (s.setRecord h { s.record h with guardHeld := true }).countPort p
          (fun c => { c with guardHolds := Count.up c.guardHolds })
        ∧ ((holdHead p h s).record h).guardHeld = true)
      ∧ ((s.record h).guardHeld = true → holdHead p h s = s))

/-- R65, R66: a gate change replaces the presentation; a frame in flight whose queue it closes, that completes later and was not counted yet, is
counted as an overrun, once; with the transmitter idle the scheduler evaluates. R40: the sequencer's part in an event delivers to a port whose
presentation differs from the one it had one gate change, and to a port whose presentation stands none; the two are judged apart, A before B (log
entry 16), and the sequencer holds what it presents. R182: a queue is closed when its bit of the gate set is clear. -/
def Obligations.GateChangeTaken : Prop :=
  (∀ (g : GateSet) (q : QueueName), GateSet.opens g q = g.getLsbD q.val)
  ∧ (∀ (p : Port) (x : Presentation) (s : State),
    (s.sequencer.presentation.get p = x → presentTo p x s = s)
    ∧ (s.sequencer.presentation.get p ≠ x → presentTo p x s = takeGateChange p x
        { s with sequencer := { s.sequencer with presentation := s.sequencer.presentation.set p x } }))
  ∧ (∀ (x : Pair Presentation) (s : State),
    presentBoth x s = presentTo .b x.b (presentTo .a x.a s)
    ∧ s.sameButWalk (presentBoth x s)
    ∧ (presentBoth x s).sequencer = { s.sequencer with presentation := x }
    ∧ (presentBoth x s).programs = s.programs ∧ (presentBoth x s).pins = s.pins ∧ (presentBoth x s).notices = s.notices
    ∧ (presentBoth x s).counters.tracker = s.counters.tracker
    ∧ (presentBoth x s).counters.sequencer = s.counters.sequencer
    ∧ (s.presentationsAgree → (presentBoth x s).presentationsAgree))
  ∧ ∀ (p : Port) (x : Presentation) (s : State),
    ((takeGateChange p x s).sched p).presentation = x
    ∧ (takeGateChange p x s).port p = s.port p
    ∧ ((takeGateChange p x s).sched p.opposite).presentation = (s.sched p.opposite).presentation
    ∧ ((s.sched p).inFlight = none →
        takeGateChange p x s = evaluate p (s.setSched p { s.sched p with presentation := x }))
    ∧ ∀ f, (s.sched p).inFlight = some f →
        takeGateChange p x s =
          if GateSet.opens x.gates (s.record f.record).queue = false ∧ Time.after f.due s.time = true
              ∧ f.overrunCounted = false then
            (s.setSched p { s.sched p with presentation := x, inFlight := some { f with overrunCounted := true } }).countPort p
              (fun c => { c with overruns := Count.up c.overruns })
          else s.setSched p { s.sched p with presentation := x }

/-- R74, R125: at the completion due the frame is counted as transmitted, its cells join the back of the free cells in their order and its
record, its guard-held flag cleared, the back of the free records, the transmitter is idle, waiting notices are offered when the port is the
owner's, and the scheduler evaluates. A record aborted in its transmission is freed in the same way. R93: the expiry finds nothing due when no
transmission is in flight or its completion is due at another time. -/
def Obligations.TransmissionCompletes : Prop :=
  (∀ (p : Port) (s : State) (f : InFlight), s.inReset = false → (s.sched p).inFlight = some f → f.due = s.time →
    ∃ u, exec (.transmissionCompletion p) s
          = .next (evaluate p (if s.agent.session.isOpen = true ∧ s.agent.session.ownerPort = p then offerAllNotices u else u))
      ∧ s.sameButTraffic u
      ∧ u.pool.freeCells = s.pool.freeCells ++ (s.record f.record).cells
      ∧ u.pool.freeRecords = s.pool.freeRecords ++ [f.record]
      ∧ (u.record f.record).guardHeld = false
      ∧ u.pool.memory = s.pool.memory
      ∧ (∀ h, h ≠ f.record → u.record h = s.record h)
      ∧ u.sched p = { s.sched p with inFlight := none }
      ∧ u.sched p.opposite = s.sched p.opposite
      ∧ u.counters = (s.countPort p (fun c => { c with transmitted := Count.up c.transmitted })).counters)
  ∧ (∀ (p : Port) (s : State) (f : InFlight), (s.sched p).inFlight = some f →
    (abortTransmission p s).pool.freeCells = s.pool.freeCells ++ (s.record f.record).cells
      ∧ (abortTransmission p s).pool.freeRecords = s.pool.freeRecords ++ [f.record]
      ∧ ((abortTransmission p s).record f.record).guardHeld = false
      ∧ (abortTransmission p s).sched p = { s.sched p with inFlight := none }
      ∧ (abortTransmission p s).counters = s.counters)
  ∧ ∀ (p : Port) (s : State), (∀ f, (s.sched p).inFlight = some f → f.due ≠ s.time) →
    exec (.transmissionCompletion p) s = .next s

/-! ### Buffer pool -/

/-- R121, R122: an offered frame is judged for a free record, for enough free cells, and for room under the quota, in this order. R122: a refused
forwarded frame is counted at the queue it was offered to, by its reason; a refused response is counted there and as a response lost; a refused
notice is not counted and stays at the head of its queue. Nothing else changes. -/
def Obligations.AdmissionAndRefusal : Prop :=
  (∀ (p : Port) (q : QueueName) (n : Nat) (s : State),
      (admissionVerdict p q n s = some .noRecord ↔ s.pool.freeRecords = [])
      ∧ (admissionVerdict p q n s = some .poolEmpty ↔
          s.pool.freeRecords ≠ [] ∧ s.pool.freeCells.length < (n + 127) / 128)
      ∧ (admissionVerdict p q n s = some .quota ↔
          s.pool.freeRecords ≠ [] ∧ (n + 127) / 128 ≤ s.pool.freeCells.length
            ∧ s.quota p q < (s.queue p q).cells + (n + 127) / 128)
      ∧ (admissionVerdict p q n s = none ↔
          s.pool.freeRecords ≠ [] ∧ (n + 127) / 128 ≤ s.pool.freeCells.length
            ∧ (s.queue p q).cells + (n + 127) / 128 ≤ s.quota p q))
  ∧ (∀ (p : Port) (bytes : List Byte) (s : State) (reason : DropReason),
      (∀ q, admissionVerdict p q bytes.length s = some reason →
        offerForwarded p q bytes s = s.countQueue p q (fun c =>
          match reason with
          | .noRecord => { c with noRecord := Count.up c.noRecord }
          | .poolEmpty => { c with poolEmpty := Count.up c.poolEmpty }
          | .quota => { c with quota := Count.up c.quota }))
      ∧ (admissionVerdict p queueM bytes.length s = some reason →
        offerResponse p bytes s = (s.countQueue p queueM (fun c =>
          match reason with
          | .noRecord => { c with noRecord := Count.up c.noRecord }
          | .poolEmpty => { c with poolEmpty := Count.up c.poolEmpty }
          | .quota => { c with quota := Count.up c.quota })).countAgent
            (fun c => { c with responsesLost := Count.up c.responsesLost }))
      ∧ (∀ n rest, s.notices.records = n :: rest →
        admissionVerdict s.agent.session.ownerPort queueM (noticeFrame s n).length s = some reason → offerAllNotices s = s))

/-- R121, R117: a frame for which a record is free, enough cells are free and the quota leaves room is accepted: it takes the record and the
cells at the front of the free lists, its bytes stand in its cells, it joins the back of its queue, the counts rise, and it is counted as
admitted; into a queue that held no record, the scheduler then evaluates. Forwarded frames and responses are stored alike. -/
def Obligations.AcceptedFrameStored : Prop :=
  ∀ (p : Port) (q : QueueName) (bytes : List Byte) (s : State) (n : Nat), s.pool.freeCells.Nodup →
    n = (bytes.length + 127) / 128 → s.pool.freeRecords ≠ [] → n ≤ s.pool.freeCells.length →
    (s.queue p q).cells + n ≤ s.quota p q →
    ∃ h rest u, s.pool.freeRecords = h :: rest
      ∧ acceptFrame p q bytes s = (if (s.queue p q).records = [] then evaluate p u else u)
      ∧ offerForwarded p q bytes s = acceptFrame p q bytes s
      ∧ (q = queueM → offerResponse p bytes s = acceptFrame p q bytes s)
      ∧ s.sameButTraffic u
      ∧ u.pool.freeRecords = rest
      ∧ u.pool.freeCells = s.pool.freeCells.drop n
      ∧ u.record h = ⟨bytes.length, p, q, s.pool.freeCells.take n, false⟩
      ∧ (∀ k, k ≠ h → u.record k = s.record k)
      ∧ u.frameBytes h = bytes
      ∧ (∀ i, (∀ c ∈ s.pool.freeCells.take n, ¬(cellAddress c ≤ i ∧ i < cellAddress c + 128)) →
          u.pool.memory.read i = s.pool.memory.read i)
      ∧ u.queue p q = ⟨(s.queue p q).records ++ [h], (s.queue p q).frames + 1, (s.queue p q).cells + n⟩
      ∧ (∀ r v, ¬(r = p ∧ v = q) → u.queue r v = s.queue r v)
      ∧ (∀ r, (u.sched r).inFlight = (s.sched r).inFlight ∧ (u.sched r).presentation = (s.sched r).presentation)
      ∧ u.counters = (s.countQueue p q (fun c => { c with admitted := Count.up c.admitted })).counters

/-! ### Cadence tracker -/

/-- R9, R93: the acquire timeout, due in ACQUIRING, clears the history and returns the tracker to SEEKING with no wait, no notice and no count;
a timeout that is not due does nothing. -/
def Obligations.AcquireTimeoutTaken : Prop :=
  ∀ s : State, s.inReset = false →
    (s.tracker.state = .acquiring → s.tracker.wait = some (.acquireTimeout s.time) →
      exec .acquireTimeout s = .next { s with tracker := ⟨.seeking, [], 0, none, s.tracker.boundary, 0, false, none⟩ })
    ∧ (s.tracker.wait ≠ some (.acquireTimeout s.time) → exec .acquireTimeout s = .next s)

/-- R12: at the window close with m + 1 no more than H the mark is counted missing, the boundary is projected to B + ref, the tracker is in HOLDOVER
with the window restarted, LOCK stays, and the sequencer takes the boundary; a close that is not due does nothing. R13, R16, R59, R167: at the
window close with m + 1 above H lock is lost: the tracker is cleared to SEEKING, LOCK is low, the miss and the loss are counted, and a sequencer
that follows a program enters FREE with cycle number 0, the free gate sets, and a pending commit applied. R19, R171: the first miss in LOCKED
raises HOLDOVER_ENTERED with the synthesised boundary, before the COMMIT_DONE of a cycle start; a loss raises LOCK_LOST with MISSING, then the
COMMIT_DONE of an entry into FREE; each with the cycle number that the event leaves. R16, R52, R59, R40: every lock loss goes so, whatever its
cause: the tracker, the count, LOCK_LOST and LOCK; from a program followed, the waits are cancelled, a pending transition is discarded and
counted as a settle cancel, the free gate sets are presented and a pending commit is applied. That LOCK_LOST is raised and offered before the free
gate sets are presented, and these before the commit is applied, is the model's choice (log entry 16). -/
def Obligations.WindowCloseTaken : Prop :=
  (∀ (s : State) (ref : Nat), s.inReset = false →
      (s.tracker.state.isLocked = true → s.tracker.wait = some (.windowClose s.time) → s.tracker.ref = some ref →
        s.tracker.missing + 1 ≤ s.config.holdover →
        ∃ w v t, exec .windowClose s = .next t ∧ s.sameButCadence t
          ∧ w = ({ s with tracker := { s.tracker with
              state := .holdover
              boundary := Time.plus s.tracker.boundary ref
              missing := s.tracker.missing + 1
              synthesised := true
              wait := some (.windowClose
                (Time.plus (Time.plus s.tracker.boundary ref) (ref + ref * s.config.window / 256))) } }).countTracker
            (fun c => { c with missingMarks := Count.up c.missingMarks })
          ∧ v = (if s.tracker.state = .locked then
              raiseNotice (.holdoverEntered (Time.plus s.tracker.boundary ref)) s.boundaryCycle w else w)
          ∧ t = takeBoundary (Time.plus s.tracker.boundary ref) ref v
          ∧ t.tracker = { s.tracker with
              state := .holdover
              boundary := Time.plus s.tracker.boundary ref
              missing := s.tracker.missing + 1
              synthesised := true
              wait := some (.windowClose
                (Time.plus (Time.plus s.tracker.boundary ref) (ref + ref * s.config.window / 256))) }
          ∧ t.pins.lock = s.pins.lock
          ∧ t.counters.tracker
              = { s.counters.tracker with missingMarks := Count.up s.counters.tracker.missingMarks }
          ∧ (s.sequencer.state = .stopped ∨ s.sequencer.state = .halted → t.sequencer = s.sequencer)
          ∧ (s.sequencer.state = .free ∨ s.sequencer.state = .running ∨ s.sequencer.state = .rejoining →
              t.sequencer.state = .running ∧ t.sequencer.origin = Time.plus s.tracker.boundary ref
                ∧ t.sequencer.span = ref)
          ∧ s.raises s.boundaryCycle
              ((if s.tracker.state = .locked then [.holdoverEntered (Time.plus s.tracker.boundary ref)] else [])
                ++ s.boundaryNotices) t)
      ∧ (s.tracker.wait ≠ some (.windowClose s.time) → exec .windowClose s = .next s))
  ∧ (∀ (s : State) (ref : Nat), s.inReset = false → s.tracker.state.isLocked = true →
      s.tracker.wait = some (.windowClose s.time) → s.tracker.ref = some ref →
      s.config.holdover < s.tracker.missing + 1 →
      ∃ t, exec .windowClose s = .next t ∧ s.sameButCadence t
        ∧ t = lockLoss .missing (s.countTracker (fun c => { c with missingMarks := Count.up c.missingMarks }))
        ∧ t.tracker = ⟨.seeking, [], 0, none, s.tracker.boundary, 0, false, none⟩
        ∧ t.pins = { s.pins with lock := false }
        ∧ t.counters.tracker
            = { s.counters.tracker with
                missingMarks := Count.up s.counters.tracker.missingMarks
                lockLosses := Count.up s.counters.tracker.lockLosses }
        ∧ (s.sequencer.state.follows = true →
            t.sequencer = { s.sequencer with
              state := .free, cycle := 0, deadline := none, settle := none, stepSeen := false, pending := none
              presentation := ⟨⟨s.config.freeGates.a, none⟩, ⟨s.config.freeGates.b, none⟩⟩ }
            ∧ t.programs.commitPending = false
            ∧ t.programs.active = (if s.programs.commitPending then s.programs.staged else s.programs.active))
        ∧ (s.sequencer.state.follows = false → t.sequencer = s.sequencer ∧ t.programs = s.programs)
        ∧ t.counters.sequencer = s.lossCounters
        ∧ s.raises s.lossCycle (s.lossNotices .missing) t)
  ∧ (∀ (cause : LossCause) (s u n v : State),
      u = ({ s with tracker := ⟨(if cause = LossCause.disabled then .off else .seeking), [], 0, none, s.tracker.boundary, 0, false, none⟩
          }).countTracker (fun c => { c with lockLosses := Count.up c.lockLosses }) →
      n = raiseNotice (.lockLost cause) s.lossCycle u → v = { n with pins := { n.pins with lock := false } } →
      (s.sequencer.state.follows = false → lockLoss cause s = v)
      ∧ (s.sequencer.state.follows = true → ∀ w,
          w = { leaveEntry v with sequencer := { (leaveEntry v).sequencer with state := .free, cycle := 0 } } →
          lockLoss cause s = applyPendingCommit .freeEntry 0
            (presentBoth ⟨⟨s.config.freeGates.a, none⟩, ⟨s.config.freeGates.b, none⟩⟩ w))
      ∧ s.sameButCadence (lockLoss cause s)
      ∧ (lockLoss cause s).counters.sequencer = s.lossCounters)

/-- That LOCK_ACQUIRED is raised and offered before the boundary goes to the sequencer is the model's choice (log entry 16), and that a capture
count at or above N locks is its reading of R8 (log entry 19). R7, section 1.2: a cycle mark in SEEKING is the first of an acquisition; in OFF it is
ignored. R8, R2, R3, R15: a cycle mark in ACQUIRING. A span below SPAN_MIN is counted and changes nothing else; another is captured, and with the
N-th capture the tracker locks on the floor of the mean of the newest N spans, LOCK rises, LOCK_ACQUIRED is raised with that ref and the cycle
number that the event leaves (R19), before the COMMIT_DONE of a cycle start, and the boundary goes to the sequencer. -/
def Obligations.AcquisitionMarksTaken : Prop :=
  (∀ (m : Time) (s : State),
      (s.tracker.state = .off → takeCycleMark m s = s)
      ∧ (s.tracker.state = .seeking →
        takeCycleMark m s = ({ s with tracker := { s.tracker with
            state := .acquiring, boundary := m, synthesised := false
            wait := some (.acquireTimeout (Time.plus m s.config.spanMax)) } }).countTracker
          (fun c => { c with acceptedMarks := Count.up c.acceptedMarks })))
  ∧ (∀ (m : Time) (s : State), s.tracker.state = .acquiring →
      ((m - s.tracker.boundary).toNat < s.config.spanMin →
        takeCycleMark m s = s.countTracker (fun c => { c with runtSpans := Count.up c.runtSpans }))
      ∧ (s.config.spanMin ≤ (m - s.tracker.boundary).toNat →
        ∀ history, history = (((m - s.tracker.boundary).toNat :: s.tracker.history).take 16) →
          (min 16 (s.tracker.captures + 1) < s.config.depth →
            takeCycleMark m s = ({ s with tracker := { s.tracker with
                history := history, captures := min 16 (s.tracker.captures + 1), boundary := m
                wait := some (.acquireTimeout (Time.plus m s.config.spanMax)) } }).countTracker
              (fun c => { c with acceptedMarks := Count.up c.acceptedMarks }))
          ∧ (s.config.depth ≤ min 16 (s.tracker.captures + 1) →
            ∀ ref v, ref = (history.take s.config.depth).sum / s.config.depth →
              v = ({ s with
                  tracker := { s.tracker with
                    state := .locked, history := history, captures := min 16 (s.tracker.captures + 1), boundary := m
                    ref := some ref, missing := 0, synthesised := false
                    wait := some (.windowClose (Time.plus m (ref + ref * s.config.window / 256))) }
                  pins := { s.pins with lock := true } }).countTracker
                (fun c => { c with acceptedMarks := Count.up c.acceptedMarks }) →
              takeCycleMark m s = takeBoundary m ref (raiseNotice (.lockAcquired ref) s.boundaryCycle v)
              ∧ s.sameButCadence (takeCycleMark m s)
              ∧ (takeCycleMark m s).tracker = { s.tracker with
                  state := .locked, history := history, captures := min 16 (s.tracker.captures + 1), boundary := m
                  ref := some ref, missing := 0, synthesised := false
                  wait := some (.windowClose (Time.plus m (ref + ref * s.config.window / 256))) }
              ∧ (takeCycleMark m s).pins.lock = true
              ∧ (takeCycleMark m s).counters.tracker.acceptedMarks = Count.up s.counters.tracker.acceptedMarks
              ∧ (s.sequencer.state = .free → (takeCycleMark m s).sequencer.state = .running
                  ∧ (takeCycleMark m s).sequencer.cycle = 0 ∧ (takeCycleMark m s).sequencer.origin = m
                  ∧ (takeCycleMark m s).sequencer.span = ref)
              ∧ s.raises s.boundaryCycle (.lockAcquired ref :: s.boundaryNotices) (takeCycleMark m s))))

/-- R10, R11, R15: a cycle mark in LOCKED or HOLDOVER. Before B + ref - w it is counted early and changes nothing else; from there to B + ref + w
it is accepted: the span is captured only with the flag clear and within the limits, the tracker is LOCKED on it with the window restarted, and
the boundary goes to the sequencer; in HOLDOVER LOCK_REGAINED is raised with the ref after the mark and the cycle number that the event leaves
(R19), before the COMMIT_DONE of a cycle start. -/
def Obligations.WindowMarkTaken : Prop :=
  ∀ (m : Time) (ref : Nat) (s : State), s.tracker.state.isLocked = true → s.tracker.ref = some ref →
    (Time.after (Time.plus s.tracker.boundary (ref - ref * s.config.window / 256)) m = true →
      takeCycleMark m s = s.countTracker (fun c => { c with earlyMarks := Count.up c.earlyMarks }))
    ∧ (Time.after (Time.plus s.tracker.boundary (ref - ref * s.config.window / 256)) m = false →
      Time.after m (Time.plus s.tracker.boundary (ref + ref * s.config.window / 256)) = false →
      ∃ history captures ref' w v, s.sameButCadence (takeCycleMark m s)
        ∧ w = ({ s with tracker := ⟨.locked, history, captures, some ref', m, 0, false,
            some (.windowClose (Time.plus m (ref' + ref' * s.config.window / 256)))⟩ }).countTracker
          (fun c => { c with acceptedMarks := Count.up c.acceptedMarks })
        ∧ v = (if s.tracker.state = .holdover then raiseNotice (.lockRegained ref') s.boundaryCycle w else w)
        ∧ takeCycleMark m s = takeBoundary m ref' v
        ∧ (if s.tracker.synthesised = false ∧ s.config.spanMin ≤ (m - s.tracker.boundary).toNat
              ∧ (m - s.tracker.boundary).toNat ≤ s.config.spanMax then
            history = (((m - s.tracker.boundary).toNat :: s.tracker.history).take 16)
              ∧ captures = min 16 (s.tracker.captures + 1)
              ∧ ref' = (history.take s.config.depth).sum / s.config.depth
          else history = s.tracker.history ∧ captures = s.tracker.captures ∧ ref' = ref)
        ∧ (takeCycleMark m s).tracker = ⟨.locked, history, captures, some ref', m, 0, false,
            some (.windowClose (Time.plus m (ref' + ref' * s.config.window / 256)))⟩
        ∧ (takeCycleMark m s).pins.lock = s.pins.lock
        ∧ (takeCycleMark m s).counters.tracker
            = { s.counters.tracker with acceptedMarks := Count.up s.counters.tracker.acceptedMarks }
        ∧ (s.sequencer.state = .free ∨ s.sequencer.state = .running ∨ s.sequencer.state = .rejoining →
            (takeCycleMark m s).sequencer.origin = m ∧ (takeCycleMark m s).sequencer.span = ref')
        ∧ s.raises s.boundaryCycle
            ((if s.tracker.state = .holdover then [.lockRegained ref'] else []) ++ s.boundaryNotices) (takeCycleMark m s))

/-! ### Phase sequencer and programs -/

/-- R47: the examination of a target. A TAIL, or an entry that ends after the moment, becomes current; another is skipped, and its next is the
target. From a start entry of a well-formed bank it always ends so (R24). R47, R55: the end time of an entry is T plus the floor of its end offset
times S over 1024, that of a TAIL T plus S. R47, R39: an entry that becomes current sets the current entry and E, clears the step-seen flag and the
pending transition, starts the deadline unless it is a TAIL, and counts the skipped entries. R52: an entry left without a transition cancels its
waits, clears the flag, and discards a pending transition with one settle cancel. -/
def Obligations.EntryEntered : Prop :=
  (∀ (origin : Time) (span : Nat),
      (∀ off next, entryEndTime origin span (.timed off next) = Time.plus origin (off * span / 1024))
      ∧ (∀ off settle next, entryEndTime origin span (.step off settle next) = Time.plus origin (off * span / 1024))
      ∧ entryEndTime origin span .tail = Time.plus origin span)
  ∧ (∀ (b : Bank) (origin m : Time) (span : Nat),
      (∀ fuel i k, (b.entry i).ending = .tail → examine b origin span m fuel i k = (i, k))
      ∧ (∀ fuel i k off next, ((b.entry i).ending = .timed off next ∨ ∃ settle, (b.entry i).ending = .step off settle next) →
          examine b origin span m (fuel + 1) i k
            = if Time.after (Time.plus origin (off * span / 1024)) m then (i, k)
              else examine b origin span m fuel next (k + 1))
      ∧ (b.wellFormed = true → ∀ cycle : Count, ∀ r, r = examine b origin span m 32 (startEntry b cycle) 0 →
          (b.entry r.1).ending = .tail
            ∨ Time.after (entryEndTime origin span (b.entry r.1).ending) m = true))
  ∧ (∀ s : State, leaveEntry s = { s with
      sequencer := { s.sequencer with deadline := none, settle := none, stepSeen := false, pending := none }
      counters := { s.counters with sequencer := { s.counters.sequencer with
        settleCancels := (if s.sequencer.pending = none then s.counters.sequencer.settleCancels
          else Count.up s.counters.sequencer.settleCancels) } } })
  ∧ (∀ (i : EntryIndex) (m : Time) (s : State) (r : EntryIndex × Nat) (e : Entry),
      r = examine s.programs.activeBank s.sequencer.origin s.sequencer.span m 32 i 0 →
      e = s.programs.activeBank.entry r.1 →
      s.sameButWalk (enterEntry i m s)
        ∧ (enterEntry i m s).egress = s.egress ∧ (enterEntry i m s).pool = s.pool
        ∧ (enterEntry i m s).notices = s.notices ∧ (enterEntry i m s).programs = s.programs
        ∧ (enterEntry i m s).pins = s.pins
        ∧ (enterEntry i m s).sequencer = { s.sequencer with
          current := r.1
          endTime := entryEndTime s.sequencer.origin s.sequencer.span e.ending
          stepSeen := false
          pending := none
          settle := none
          deadline := (match e.ending with
            | .tail => none
            | _ => some (entryEndTime s.sequencer.origin s.sequencer.span e.ending)) }
        ∧ (enterEntry i m s).counters = { s.counters with sequencer := { s.counters.sequencer with
            skippedEntries := Count.upBy r.2 s.counters.sequencer.skippedEntries } }
        ∧ runningPresentation (enterEntry i m s)
            = (if e.guarded then
                ⟨⟨e.gates.a, some (entryEndTime s.sequencer.origin s.sequencer.span e.ending)⟩,
                  ⟨e.gates.b, some (entryEndTime s.sequencer.origin s.sequencer.span e.ending)⟩⟩
              else ⟨⟨e.gates.a, none⟩, ⟨e.gates.b, none⟩⟩))

/-- R49, R40, R47: the entry deadline, due in RUNNING, enters the next entry at E, counting the entries it skips, and delivers the gate changes; a
STEP entry with no pending transition and the flag clear counts a step timeout. A deadline that is not due does nothing. -/
def Obligations.EntryDeadlineTaken : Prop :=
  ∀ s : State, s.inReset = false →
    (∀ next, s.sequencer.state = .running → s.sequencer.deadline = some s.time →
      ((∃ off, s.currentEntry.ending = .timed off next) ∨ ∃ off settle, s.currentEntry.ending = .step off settle next) →
      ∃ missed w v t, exec .entryDeadline s = .next t ∧ s.sameButWalk t ∧ t.programs = s.programs ∧ t.pins = s.pins
        ∧ t.notices = s.notices
        ∧ missed = (match s.currentEntry.ending with
            | .step _ _ _ => s.sequencer.pending = none ∧ s.sequencer.stepSeen = false
            | _ => False)
        ∧ (missed → w = s.countSequencer (fun c => { c with stepTimeouts := Count.up c.stepTimeouts }))
        ∧ (¬missed → w = s)
        ∧ v = enterEntry next s.time w
        ∧ t = presentBoth (runningPresentation v) v
        ∧ (∀ r, r = examine s.programs.activeBank s.sequencer.origin s.sequencer.span s.time 32 next 0 →
            t.counters.sequencer = { w.counters.sequencer with
              skippedEntries := Count.upBy r.2 s.counters.sequencer.skippedEntries })
        ∧ t.sequencer = { (enterEntry next s.time s).sequencer with
            presentation := runningPresentation (enterEntry next s.time s) }
        ∧ (s.presentationsAgree → t.presentationsAgree)
        ∧ t.counters.sequencer.stepTimeouts
            = (match s.currentEntry.ending with
              | .step _ _ _ =>
                if s.sequencer.pending = none ∧ s.sequencer.stepSeen = false then
                  Count.up s.counters.sequencer.stepTimeouts
                else s.counters.sequencer.stepTimeouts
              | _ => s.counters.sequencer.stepTimeouts))
    ∧ (s.sequencer.deadline ≠ some s.time → exec .entryDeadline s = .next s)

/-- R52, R40, R47: the settle due, due in RUNNING, enters the pending transition's target at that moment, counting the entries it skips, and
delivers the gate changes. One that is not due does nothing. -/
def Obligations.SettleDueTaken : Prop :=
  ∀ s : State, s.inReset = false →
    (∀ x : Transition, s.sequencer.state = .running → s.sequencer.settle = some s.time → s.sequencer.pending = some x →
      ∃ v t, exec .settleDue s = .next t ∧ s.sameButWalk t ∧ t.programs = s.programs ∧ t.pins = s.pins
        ∧ t.notices = s.notices
        ∧ v = enterEntry x.target s.time s
        ∧ t = presentBoth (runningPresentation v) v
        ∧ (∀ r, r = examine s.programs.activeBank s.sequencer.origin s.sequencer.span s.time 32 x.target 0 →
            t.counters.sequencer = { s.counters.sequencer with
              skippedEntries := Count.upBy r.2 s.counters.sequencer.skippedEntries })
        ∧ t.sequencer = { (enterEntry x.target s.time s).sequencer with
            presentation := runningPresentation (enterEntry x.target s.time s) }
        ∧ (s.presentationsAgree → t.presentationsAgree)
        ∧ t.counters.sequencer.settleCancels = s.counters.sequencer.settleCancels)
    ∧ (s.sequencer.settle ≠ some s.time → exec .settleDue s = .next s)

/-- R60: the pulse end drives SYNC_OUT low and changes nothing else; one that is not due does nothing. -/
def Obligations.SyncOutPulseEnds : Prop :=
  ∀ s : State, s.inReset = false →
    (s.sequencer.pulseEnd = some s.time →
      exec .syncOutPulseEnd s = .next { s with
        pins := { s.pins with syncOut := false }, sequencer := { s.sequencer with pulseEnd := none } })
    ∧ (s.sequencer.pulseEnd ≠ some s.time → exec .syncOutPulseEnd s = .next s)

/-- R44, R45, R46, R48, R166: a boundary is ignored in STOPPED and held and counted in HALTED; in FREE, RUNNING and REJOINING a cycle starts:
a pending commit is applied, with COMMIT_DONE at CYCLE_START raised for the new cycle (R171), the cycle number is 0 from FREE and one more
otherwise, T and S are latched, the start entry of that number is entered at the moment, with its deadline started at E unless it is a TAIL (R47),
the cycle is counted, the gate changes are delivered (R40), and SYNC_OUT is raised for 125 ticks while its enable is on. From RUNNING the running
cycle ends first: a pending transition is a settle cancel, a TIMED or STEP entry is truncated, and a STEP entry counts no step timeout. -/
def Obligations.BoundaryTaken : Prop :=
  ∀ (origin : Time) (ref : Nat) (s : State),
    (s.sequencer.state = .stopped → takeBoundary origin ref s = s)
    ∧ (s.sequencer.state = .halted →
      takeBoundary origin ref s = s.countSequencer (fun c => { c with heldBoundaries := Count.up c.heldBoundaries }))
    ∧ (endCycle s = if s.currentEntry.ending = .tail then leaveEntry s
        else (leaveEntry s).countSequencer (fun c => { c with truncations := Count.up c.truncations }))
    ∧ (s.sequencer.state = .free ∨ s.sequencer.state = .running ∨ s.sequencer.state = .rejoining →
      ∀ (t : State) (cycle : Count) (b : Bank) (r : EntryIndex × Nat), t = takeBoundary origin ref s →
        cycle = (if s.sequencer.state = .free then 0 else s.sequencer.cycle + 1) →
        b = (if s.programs.commitPending then s.programs.stagedBank else s.programs.activeBank) →
        r = examine b origin ref s.time 32 (Fin.ofNat 32 (b.header.slot (cycle.toNat % b.header.period.toNat)).toNat) 0 →
        (∃ n v w x,
          n = applyPendingCommit .cycleStart cycle (if s.sequencer.state = .running then endCycle s else s)
          ∧ v = enterEntry (Fin.ofNat 32 (b.header.slot (cycle.toNat % b.header.period.toNat)).toNat) s.time
              { n with sequencer := { n.sequencer with cycle := cycle, origin := origin, span := ref } }
          ∧ w = ({ v with sequencer := { v.sequencer with state := .running } }).countSequencer
              (fun c => { c with cycles := Count.up c.cycles })
          ∧ x = presentBoth (runningPresentation w) w
          ∧ t = if s.config.syncOutEnable then
              { x with
                pins := { x.pins with syncOut := true }
                sequencer := { x.sequencer with pulseEnd := some (Time.plus s.time 125) } }
            else x)
        ∧ s.sameButWalk t
        ∧ t.programs = (if s.programs.commitPending then
              { s.programs with active := s.programs.staged, commitPending := false } else s.programs)
        ∧ t.sequencer.state = .running ∧ t.sequencer.cycle = cycle ∧ t.sequencer.origin = origin
        ∧ t.sequencer.span = ref ∧ t.sequencer.current = r.1
        ∧ t.sequencer.endTime = entryEndTime origin ref (b.entry r.1).ending
        ∧ t.sequencer.pending = none ∧ t.sequencer.settle = none ∧ t.sequencer.stepSeen = false
        ∧ t.sequencer.deadline = (match (b.entry r.1).ending with
            | .tail => none
            | _ => some (entryEndTime origin ref (b.entry r.1).ending))
        ∧ s.raises cycle s.boundaryNotices t
        ∧ t.sequencer.presentation = runningPresentation t
        ∧ (s.presentationsAgree → t.presentationsAgree)
        ∧ t.pins.syncOut = (s.config.syncOutEnable || s.pins.syncOut)
        ∧ t.sequencer.pulseEnd
            = (if s.config.syncOutEnable then some (Time.plus s.time 125) else s.sequencer.pulseEnd)
        ∧ t.counters.tracker = s.counters.tracker
        ∧ t.counters.sequencer = { s.counters.sequencer with
            cycles := Count.up s.counters.sequencer.cycles
            skippedEntries := Count.upBy r.2 s.counters.sequencer.skippedEntries
            truncations := (if s.sequencer.state = .running ∧ s.currentEntry.ending ≠ .tail then
                Count.up s.counters.sequencer.truncations else s.counters.sequencer.truncations)
            settleCancels := (if s.sequencer.state = .running ∧ s.sequencer.pending ≠ none then
                Count.up s.counters.sequencer.settleCancels else s.counters.sequencer.settleCancels) })

/-- R51, R40, R47: a step mark in a STEP entry without a pending transition enters the next entry at once when the settle delay is 0, counting the
entries it skips and delivering the gate changes, records a pending
transition when it falls due before E, and else sets the step-seen flag. R53: a step mark outside RUNNING, in a TIMED or TAIL entry, or with a
transition already pending, is counted as stray and changes nothing else. -/
def Obligations.StepMarkTaken : Prop :=
  (∀ (m : Time) (s : State) (off : Nat) (settle : BitVec 8) (next : EntryIndex) (d : Nat),
      s.sequencer.state = .running → s.currentEntry.ending = .step off settle next → s.sequencer.pending = none →
      d = settle.toNat * s.sequencer.span / 1024 →
      (d = 0 →
        s.sameButWalk (takeStepMark m s)
        ∧ takeStepMark m s = presentBoth (runningPresentation (enterEntry next m s)) (enterEntry next m s)
        ∧ (takeStepMark m s).sequencer = { (enterEntry next m s).sequencer with
            presentation := runningPresentation (enterEntry next m s) }
        ∧ (takeStepMark m s).programs = s.programs ∧ (takeStepMark m s).pins = s.pins
        ∧ (takeStepMark m s).notices = s.notices
        ∧ (s.presentationsAgree → (takeStepMark m s).presentationsAgree)
        ∧ ∀ r, r = examine s.programs.activeBank s.sequencer.origin s.sequencer.span m 32 next 0 →
            (takeStepMark m s).counters.sequencer = { s.counters.sequencer with
              skippedEntries := Count.upBy r.2 s.counters.sequencer.skippedEntries })
      ∧ (0 < d → Time.after s.sequencer.endTime (Time.plus m d) = true →
        takeStepMark m s = { s with sequencer := { s.sequencer with
          pending := some ⟨next, Time.plus m d⟩, settle := some (Time.plus m d) } })
      ∧ (0 < d → Time.after s.sequencer.endTime (Time.plus m d) = false →
        takeStepMark m s = { s with sequencer := { s.sequencer with stepSeen := true } }))
  ∧ (∀ (m : Time) (s : State),
      (s.sequencer.state ≠ .running ∨ (∀ off settle next, s.currentEntry.ending ≠ .step off settle next)
        ∨ s.sequencer.pending ≠ none) →
      takeStepMark m s = s.countSequencer (fun c => { c with straySteps := Count.up c.straySteps }))

/-- R28, R29, R30, R31: the period is judged first, then the start slots in use, then the walks by position; the first failure is the fault. A walk
that comes back to an entry it has passed gives NO_TAIL with its position and that entry; else one that comes to an entry whose end offset is not
above that of the entry before it gives NON_INCREASING with its position and that entry; a bank whose walks all rise to a TAIL is accepted. R24,
R30: from every start slot in use a well-formed bank's walk rises to a TAIL within 32 entries, and from every entry the walk ends in one of the
three ways. -/
def Obligations.ValidationOfBanks : Prop :=
  (∀ b : Bank,
      ((b.header.period.toNat < 1 ∨ 4 < b.header.period.toNat) →
        validate b = some ⟨.badPeriod, 0, b.header.period.toNat⟩)
      ∧ (∀ k : Nat, 1 ≤ b.header.period.toNat → b.header.period.toNat ≤ 4 → k < b.header.period.toNat →
        32 ≤ (b.header.slot k).toNat → (∀ j < k, (b.header.slot j).toNat < 32) →
        validate b = some ⟨.badStart, k, (b.header.slot k).toNat⟩)
      ∧ (1 ≤ b.header.period.toNat → b.header.period.toNat ≤ 4 →
        (∀ k < b.header.period.toNat, (b.header.slot k).toNat < 32) →
        (∀ k < b.header.period.toNat, ∀ f, walkFault b k 33 [] none (b.header.start k) = some f →
          (∀ j < k, walkFault b j 33 [] none (b.header.start j) = none) → validate b = some f)
        ∧ (∀ k < b.header.period.toNat, (∀ j < k, b.risesToTail (b.header.start j)) →
          ∀ walk last next, b.walks (b.header.start k) walk last → b.nextOf last = some next →
            (next ∈ walk → validate b = some ⟨.noTail, k, next.val⟩)
            ∧ (next ∉ walk → ∀ x y, b.offsetOf last = some x → b.offsetOf next = some y → y ≤ x →
              validate b = some ⟨.nonIncreasing, k, next.val⟩))
        ∧ ((∀ k < b.header.period.toNat, b.risesToTail (b.header.start k)) → validate b = none))
      ∧ (validate b = none ↔
        1 ≤ b.header.period.toNat ∧ b.header.period.toNat ≤ 4
          ∧ ∀ k < b.header.period.toNat, (b.header.slot k).toNat < 32
            ∧ walkFault b k 33 [] none (b.header.start k) = none))
  ∧ (∀ (b : Bank) (k : Nat), b.wellFormed = true → k < b.header.period.toNat →
      (b.header.start k).val = (b.header.slot k).toNat
        ∧ ∃ walk last, b.walks (b.header.start k) walk last ∧ (b.entry last).ending = .tail ∧ walk.length ≤ 32)
  ∧ (∀ (b : Bank) (first : EntryIndex), ∃ walk last, b.walks first walk last
      ∧ ((b.entry last).ending = .tail
        ∨ ∃ next, b.nextOf last = some next
          ∧ (next ∈ walk ∨ ∃ x y, b.offsetOf last = some x ∧ b.offsetOf next = some y ∧ y ≤ x)))

/-! ### The management agent -/

/-- R132, R133: a short request is dropped and counted; no response is sent and no session state changes. R133: of a request that is not short the
version is judged first, then the code, then the flags; the first that fails is answered and the request is not executed, whatever its row.
Section 12.1, R183: the fields of a request, from its payload without the check sequence (log entry 9), and the row of each code (RESET and the
enables: log entry 8); every code but the 18 of section 12.1, 0x80 among them, has the row BAD_CODE. -/
def Obligations.HeaderChecksInOrder : Prop :=
  (∀ (slot : Slot) (payload : List Byte) (length : Nat),
      payload = (slot.bytes.take (slot.bytes.length - 4)).drop (frameFields slot.bytes).payloadAt →
      length = numberOf ((payload.drop 2).take 2) →
      (isShort slot = true ↔ payload.length < 10 ∨ length < 10 ∨ payload.length < length)
      ∧ requestOf slot = ⟨slot.port, slot.source, payload.getD 0 0, payload.getD 1 0, length,
          BitVec.ofNat 16 (numberOf ((payload.drop 4).take 2)), BitVec.ofNat 16 (numberOf ((payload.drop 6).take 2)),
          BitVec.ofNat 16 (numberOf ((payload.drop 8).take 2)), (payload.take length).drop 10⟩
      ∧ slotRow slot = if isShort slot then .shortFrameDropped else requestRow (requestOf slot))
  ∧ (∀ r : Request,
      ([0x01, 0x02, 0x04, 0x10, 0x11, 0x20, 0x21, 0x22, 0x23, 0x24, 0x30, 0x31, 0x50, 0x51, 0x52].map
          (fun c => requestRow { r with code := c })
        = [.identify, .readConfig, .readStatus, .readMatch, .writeMatch, .readProgram, .writeProgram, .writeProgramHeader, .commit,
          .cancelCommit, .halt, .resume, .openSession, .renew, .closeSession])
      ∧ requestRow { r with code := 0x05 } = (if r.args = [1] then .resetFull else .resetTraffic)
      ∧ requestRow { r with code := 0x40 } = (if r.flags.getLsbD 0 then .readCountersClear else .readCounters)
      ∧ requestRow { r with code := 0x03 } = writeConfigRow r.args
      ∧ (requestRow r = .badCode ↔ r.code ∉ ([0x01, 0x02, 0x03, 0x04, 0x05, 0x10, 0x11, 0x20, 0x21, 0x22, 0x23, 0x24, 0x30, 0x31,
          0x40, 0x50, 0x51, 0x52] : List Byte)))
  ∧ (∀ (id : Byte) (value : List Byte),
      [0x01, 0x02, 0x11, 0x12, 0x13, 0x14, 0x15, 0x16, 0x21, 0x22, 0x23, 0x30, 0x60].map (fun c => writeConfigRow (c :: value))
        = [.writeStationAddress, .writeManagementType, .writeTrackerItem, .writeTrackerItem, .writeTrackerItem, .writeTrackerItem,
          .writeTrackerItem, .writeTrackerItem, .writeFreeGateSet, .writeFreeGateSet, .writeSyncOutEnable, .writeDefaultAction,
          .writeNoticeEnableSet]
      ∧ writeConfigRow (0x10 :: value)
          = (if value = [1] then .trackerEnableOn else if value = [0] then .trackerEnableOff else .writeConfig)
      ∧ writeConfigRow (0x20 :: value)
          = (if value = [1] then .sequencerEnableOn else if value = [0] then .sequencerEnableOff else .writeConfig)
      ∧ (0x40 ≤ id.toNat ∧ id.toNat ≤ 0x48 ∨ 0x50 ≤ id.toNat ∧ id.toNat ≤ 0x58 → writeConfigRow (id :: value) = .writeQuota)
      ∧ (configIdOf id.toNat = none → writeConfigRow (id :: value) = .writeConfig)
      ∧ writeConfigRow [] = .writeConfig)
  ∧ (∀ (s : State) (slot : Slot) (rest : List Slot), serviceOpen s = true → s.agent.fifo = slot :: rest → isShort slot = true →
      exec .shortFrameDropped s = .next
        ((takeSlot rest s).countAgent (fun c => { c with shortFrames := Count.up c.shortFrames })))
  ∧ (∀ (s : State) (slot : Slot) (rest : List Slot), serviceOpen s = true → s.agent.fifo = slot :: rest →
      isShort slot = false →
      ((requestOf slot).version ≠ 1 →
        exec (slotRow slot) s = .next (respond (requestOf slot) (Answer.refuse .badVersion) (takeSlot rest s)))
      ∧ ((requestOf slot).version = 1 → slotRow slot = .badCode →
        exec .badCode s = .next (respond (requestOf slot) (Answer.refuse .badCode) (takeSlot rest s)))
      ∧ ((requestOf slot).version = 1 → slotRow slot ≠ .badCode →
        ((∃ i < 16, i ≠ 0 ∧ (requestOf slot).flags.getLsbD i = true)
          ∨ ((requestOf slot).flags.getLsbD 0 = true ∧ (requestOf slot).code ≠ 0x40)) →
        exec (slotRow slot) s = .next (respond (requestOf slot) ⟨.badArgument, 0, [4, 0, 0]⟩ (takeSlot rest s))))

/-- R138, R139, R149: the response goes to the M queue of the arrival port as an admission; requests taken rises by one, requests refused by one
unless the status is OK, responses lost by one when the admission is refused, and traffic is all that changes beside; the other groups of counters
are those that the admission leaves. R138, section 12.1: the bytes of a response: addressed to the sender, from the station address, with the
management type, version 1, the code and the sequence echoed, the session number or 0, the flags, the status and the result, padded with zeros to 64
bytes (R185), with a check sequence that passes. The encodings of the statuses and of the details of BAD_ARGUMENT (sections 12.1 and 12.4, R184). -/
def Obligations.ResponseBuiltAndOffered : Prop :=
  ([.ok, .badVersion, .badCode, .badArgument, .notOwner, .sessionHeld, .sequenceGap, .wrongState, .stagedLocked, .commitPending,
      .noCommit, .programInvalid].map Status.byte = [0, 1, 2, 3, 4, 5, 6, 7, 8, 9, 10, 11]
    ∧ ∀ i f, [.badRange, .badField i f, .badLength, .badValue].map Answer.badArgument
        = [[1, 0, 0], [2, BitVec.ofNat 8 i, BitVec.ofNat 8 f], [3, 0, 0], [4, 0, 0]].map (⟨.badArgument, 0, ·⟩)
    ∧ ∀ b st, Answer.okay b = ⟨.ok, 0, b⟩ ∧ Answer.refuse st = ⟨st, 0, []⟩)
  ∧ (∀ (r : Request) (a : Answer) (s : State),
      s.sameButTraffic (respond r a s)
      ∧ (respond r a s).counters.agent = { s.counters.agent with
          requestsTaken := Count.up s.counters.agent.requestsTaken
          requestsRefused := (if a.status = .ok then s.counters.agent.requestsRefused
            else Count.up s.counters.agent.requestsRefused)
          responsesLost := (if admissionVerdict r.port queueM (responseFrame r a s).length s = none then
              s.counters.agent.responsesLost else Count.up s.counters.agent.responsesLost) }
      ∧ (respond r a s).counters = { (offerResponse r.port (responseFrame r a s) s).counters with
          agent := (respond r a s).counters.agent }
      ∧ (respond r a s).counters.tracker = s.counters.tracker
      ∧ (respond r a s).counters.sequencer = s.counters.sequencer
      ∧ (respond r a s).pool = (offerResponse r.port (responseFrame r a s) s).pool
      ∧ (respond r a s).egress = (offerResponse r.port (responseFrame r a s) s).egress)
  ∧ (∀ (r : Request) (a : Answer) (s : State), a.result.length ≤ 1000 →
      (responseFrame r a s).length = max 64 (14 + 12 + a.result.length + 4)
      ∧ (frameFields (responseFrame r a s)).destination = r.source
      ∧ (frameFields (responseFrame r a s)).source = s.config.stationAddress
      ∧ (s.config.managementType ≠ 0x8100 →
          (frameFields (responseFrame r a s)).etherType = s.config.managementType
            ∧ (frameFields (responseFrame r a s)).tag = none)
      ∧ ((responseFrame r a s).drop 14).take (12 + a.result.length)
          = [1, r.code] ++ bigEndian 2 (12 + a.result.length) ++ bigEndian 2 r.sequence.toNat
            ++ bigEndian 2 (if s.agent.session.isOpen then s.agent.session.number else 0).toNat
            ++ bigEndian 2 a.flags.toNat ++ [a.status.byte, 0] ++ a.result
      ∧ (∀ i, 26 + a.result.length ≤ i → i < (responseFrame r a s).length - 4 → (responseFrame r a s)[i]? = some 0)
      ∧ checkPasses (responseFrame r a s) = true)

/-- R135: an owner-only request from a sender that is not the owner, or without a session, or with another session number, is answered NOT_OWNER and
is neither executed nor recorded: lease, last sequence and replay record stand. R136: an owner's request that is not the next in sequence is not
executed: with sequence q and the recorded code it is answered from the replay record with the DUPLICATE flag, else SEQUENCE_GAP with q + 1;
only the lease has been restarted. R183: the owner's next request of a code with a fixed argument layout is refused with BAD_LENGTH, and recorded,
when its arguments are shorter or longer; nothing is executed. R136: what is recorded of an executed request: the last sequence and the replay
record, with the request's sequence, its code and the status answered. R135, R132, R151: before it, its slot has left the FIFO, the service moment
is used, and the lease is restarted with the length in force. -/
def Obligations.OwnerRequestsGuarded : Prop :=
  ((∀ (row : Instr) (s : State) (r : Request) (a : Answer) (u : State),
      (answers row s r a u ↔ exec row s = .next (respond r a u))
      ∧ (executes row s r a u ↔ exec row s = .next (respond r a { u with agent := { u.agent with
          session := { u.agent.session with lastSequence := r.sequence }
          replay := some ⟨r.sequence, r.code, a.status⟩ } })))
    ∧ ∀ (s : State) (rest : List Slot) (due : Time), due = Time.plus s.time (s.agent.session.leaseMs * 125000) →
        s.owned rest = { s with agent := { s.agent with
          fifo := rest, serviced := true
          session := { s.agent.session with leaseExpiry := due, leaseWait := some due } } })
  ∧ (∀ row ∈ ownerOnlyRows, ∀ (s : State) (slot : Slot) (rest : List Slot), s.serves row slot rest →
      (s.agent.session.isOpen = false ∨ (requestOf slot).source ≠ s.agent.session.ownerAddress
        ∨ (requestOf slot).session ≠ s.agent.session.number) →
      answers row s (requestOf slot) (Answer.refuse .notOwner)
        { s with agent := { s.agent with fifo := rest, serviced := true } })
  ∧ (∀ row ∈ ownerOnlyRows, ∀ (s : State) (slot : Slot) (rest : List Slot), s.serves row slot rest →
      ownerCheck (requestOf slot) s = true → (requestOf slot).sequence ≠ s.agent.session.lastSequence + 1 →
      (∀ x : Replay, s.agent.replay = some x → (requestOf slot).sequence = s.agent.session.lastSequence →
        (requestOf slot).code = x.code →
        answers row s (requestOf slot) ⟨x.status, 0x0002, []⟩ (s.owned rest))
      ∧ ((s.agent.replay = none ∨ (requestOf slot).sequence ≠ s.agent.session.lastSequence
          ∨ ∃ x, s.agent.replay = some x ∧ (requestOf slot).code ≠ x.code) →
        answers row s (requestOf slot) ⟨.sequenceGap, 0, bigEndian 2 (s.agent.session.lastSequence + 1).toNat⟩
          (s.owned rest)))
  ∧ (∀ x ∈ ownerArguments, ∀ (s : State) (slot : Slot) (rest : List Slot), s.serves x.1 slot rest →
      s.ownersNext (requestOf slot) → (requestOf slot).args.length ≠ x.2 →
      executes x.1 s (requestOf slot) (Answer.badArgument .badLength) (s.owned rest))

/-- R144, R145, R141, R112, R36, R174, R137: the reads are answered OK with their results from any source, and change nothing: the slot has left
the FIFO, and the response is offered. R183: with arguments of another length they, and OPEN_SESSION, are refused with BAD_LENGTH. R140,
section 12.4: the identifiers of the 33 items, the bytes of each value, and what the reads of the Match Table and of the banks return. -/
def Obligations.ReadsAnswered : Prop :=
  ([0x01, 0x02, 0x10, 0x11, 0x12, 0x13, 0x14, 0x15, 0x16, 0x20, 0x21, 0x22, 0x23, 0x30, 0x60].map configIdOf
      = [.stationAddress, .managementType, .trackerEnable, .cadencePort, .depth, .window, .holdover, .spanMin, .spanMax,
        .sequencerEnable, .freeGates .a, .freeGates .b, .syncOutEnable, .defaultAction, .noticeEnable].map some
    ∧ (∀ q : QueueName, configIdOf (0x40 + q.val) = some (.quota .a q) ∧ configIdOf (0x50 + q.val) = some (.quota .b q))
    ∧ configIdentifiers = [0x01, 0x02, 0x10, 0x11, 0x12, 0x13, 0x14, 0x15, 0x16, 0x20, 0x21, 0x22, 0x23, 0x30]
        ++ (List.range 9).map (0x40 + ·) ++ (List.range 9).map (0x50 + ·) ++ [0x60]
    ∧ (∀ n, configIdOf n = none ↔ n ∉ configIdentifiers))
  ∧ (∀ (c : ConfigItems) (p : Port) (q : QueueName),
      configValue c .stationAddress = bigEndian 6 c.stationAddress.toNat
      ∧ configValue c .managementType = bigEndian 2 c.managementType.toNat
      ∧ configValue c .trackerEnable = [if c.trackerEnable then 1 else 0]
      ∧ configValue c .cadencePort = [portByte c.cadencePort]
      ∧ configValue c .depth = [BitVec.ofNat 8 c.depth] ∧ configValue c .window = [BitVec.ofNat 8 c.window]
      ∧ configValue c .holdover = [BitVec.ofNat 8 c.holdover]
      ∧ configValue c .spanMin = bigEndian 4 c.spanMin ∧ configValue c .spanMax = bigEndian 4 c.spanMax
      ∧ configValue c .sequencerEnable = [if c.sequencerEnable then 1 else 0]
      ∧ configValue c (.freeGates p) = bigEndian 2 (c.freeGates.get p).toNat
      ∧ configValue c .syncOutEnable = [if c.syncOutEnable then 1 else 0]
      ∧ configValue c .defaultAction = actionBytes c.defaultAction
      ∧ configValue c (.quota p q) = bigEndian 2 (c.quotas.get p)[q]
      ∧ configValue c .noticeEnable = [BitVec.ofNat 8 c.noticeEnable.toNat]
      ∧ (∀ item, (configValue c item).length = item.size)
      ∧ ∀ n item, configIdOf n = some item → configItemBytes c n = BitVec.ofNat 8 n :: configValue c item)
  ∧ (∀ (c : Classifier) (i : MatchIndex),
      matchEntryResult c i = bigEndian 2 i.val ++ matchRecordBytes (c.entry i) ++ bigEndian 4 (c.hit i).toNat)
  ∧ (∀ (role : Nat) (id : BankId) (b : Bank) (pending : Bool) (first count : Nat),
      programResult role id b pending first count
        = [BitVec.ofNat 8 role, bankByte id, if pending then 1 else 0, b.header.period]
          ++ (List.range 4).map b.header.slot ++ [BitVec.ofNat 8 first, BitVec.ofNat 8 count]
          ++ (List.range count).flatMap (fun k => entryRecordBytes (b.entry (Fin.ofNat 32 (first + k)))))
  ∧ ∀ (s : State) (slot : Slot) (rest : List Slot) (r : Request) (u : State), r = requestOf slot →
    u = { s with agent := { s.agent with fifo := rest, serviced := true } } →
    (s.serves .identify slot rest → r.args = [] → answers .identify s r (Answer.okay (identifyResult u)) u)
    ∧ (s.serves .readStatus slot rest → r.args = [] → answers .readStatus s r (Answer.okay (statusResult u)) u)
    ∧ (∀ id : Byte, s.serves .readConfig slot rest → r.args = [id] →
        (∀ item, configIdOf id.toNat = some item →
          answers .readConfig s r (Answer.okay (id :: configValue s.config item)) u)
        ∧ (id = 0xFF → answers .readConfig s r (Answer.okay (configIdentifiers.flatMap (configItemBytes s.config))) u)
        ∧ (configIdOf id.toNat = none → id ≠ 0xFF → answers .readConfig s r (Answer.badArgument .badValue) u))
    ∧ (∀ first count : Byte, s.serves .readMatch slot rest → r.args = [first, count] →
        (1 ≤ count.toNat ∧ count.toNat ≤ 8 ∧ first.toNat ≤ 63 ∧ first.toNat + count.toNat ≤ 64 →
          answers .readMatch s r (Answer.okay ((List.range count.toNat).flatMap
            (fun k => matchEntryResult s.classifier (Fin.ofNat 64 (first.toNat + k))))) u)
        ∧ (¬(1 ≤ count.toNat ∧ count.toNat ≤ 8 ∧ first.toNat ≤ 63 ∧ first.toNat + count.toNat ≤ 64) →
          answers .readMatch s r (Answer.badArgument .badRange) u))
    ∧ (∀ role first count : Byte, s.serves .readProgram slot rest → r.args = [role, first, count] →
        (1 < role.toNat → answers .readProgram s r (Answer.badArgument .badValue) u)
        ∧ (role.toNat ≤ 1 →
          ¬(1 ≤ count.toNat ∧ count.toNat ≤ 8 ∧ first.toNat ≤ 31 ∧ first.toNat + count.toNat ≤ 32) →
          answers .readProgram s r (Answer.badArgument .badRange) u)
        ∧ (1 ≤ count.toNat ∧ count.toNat ≤ 8 ∧ first.toNat ≤ 31 ∧ first.toNat + count.toNat ≤ 32 →
          (role = 0 → answers .readProgram s r (Answer.okay (programResult 0 s.programs.active s.programs.activeBank
            s.programs.commitPending first.toNat count.toNat)) u)
          ∧ (role = 1 → answers .readProgram s r (Answer.okay (programResult 1 s.programs.staged s.programs.stagedBank
            s.programs.commitPending first.toNat count.toNat)) u)))
    ∧ (∀ selector : Byte, s.serves .readCounters slot rest → r.args = [selector] →
        (∀ g, groupOf selector.toNat = some g →
          answers .readCounters s r
            (Answer.okay (selector :: (groupValues s.counters g).flatMap (fun v => bigEndian 4 v.toNat))) u)
        ∧ (groupOf selector.toNat = none → answers .readCounters s r (Answer.badArgument .badValue) u))
    ∧ (∀ x ∈ openArguments, s.serves x.1 slot rest → r.args.length ≠ x.2 →
        answers x.1 s r (Answer.badArgument .badLength) u)

/-- R144, R145, R21, R62, R79, R96, R129, R160, R181, R185, section 12.4: IDENTIFY returns its 24 bytes, READ_STATUS 282, with every part of the
status at its offset, and absent fields 0 beside an indicator of 0. The kind at offset 86 is that of the active bank's entry at the current index
(log entry 14), and the guard limit at offset 120 that of port A's presentation (log entry 21): the model's reading of R62. -/
def Obligations.StatusLaidOut : Prop :=
  ([.off, .seeking, .acquiring, .locked, .holdover].map trackerStateByte = [0, 1, 2, 3, 4]
    ∧ [.stopped, .free, .running, .halted, .rejoining].map sequencerStateByte = [0, 1, 2, 3, 4]
    ∧ (∀ off next settle, [.timed off next, .step off settle next, .tail].map entryKindByte = [0, 1, 2])
    ∧ [Port.a, .b].map portByte = [0, 1] ∧ [Link.down, .up].map linkByte = [0, 1]
    ∧ [BankId.bank0, .bank1].map bankByte = [0, 1] ∧ [Speed.mbps100, .mbps1000].map speedByte = [0, 1])
  ∧ ∀ s : State,
    identifyResult s = [0x4D, 0x46, 0x0C, 0x02, 1] ++ bigEndian 6 s.config.stationAddress.toNat
        ++ [speedByte (s.speed .a), speedByte (s.speed .b)] ++ [0x02, 0x00, 0x00, 0x80, 0x01, 0x00, 64, 32, 16, 8, 4]
    ∧ (identifyResult s).length = 24 ∧ (statusResult s).length = 282
    ∧ (statusResult s).take 6 = bigEndian 6 s.time.toNat
    ∧ ((statusResult s).drop 6).take 14 = [trackerStateByte s.tracker.state]
        ++ (match s.tracker.ref with
          | some ref => 1 :: bigEndian 4 ref
          | none => [0, 0, 0, 0, 0])
        ++ bigEndian 1 s.tracker.history.length ++ bigEndian 1 s.tracker.missing ++ bigEndian 6 s.tracker.boundary.toNat
    ∧ (∀ k < 16, ((statusResult s).drop (20 + 4 * k)).take 4 = bigEndian 4 (s.tracker.history.getD k 0))
    ∧ ((statusResult s).drop 84).take 43
        = [sequencerStateByte s.sequencer.state, BitVec.ofNat 8 s.sequencer.current.val,
            entryKindByte (s.programs.activeBank.entry s.sequencer.current).ending,
            if s.sequencer.stepSeen then 1 else 0]
        ++ bigEndian 6 s.sequencer.origin.toNat ++ bigEndian 4 s.sequencer.span ++ bigEndian 6 s.sequencer.endTime.toNat
        ++ (match s.sequencer.pending with
          | some x => 1 :: BitVec.ofNat 8 x.target.val :: bigEndian 6 x.due.toNat
          | none => List.replicate 8 0)
        ++ bigEndian 4 s.sequencer.cycle.toNat
        ++ bigEndian 2 s.sequencer.presentation.a.gates.toNat ++ bigEndian 2 s.sequencer.presentation.b.gates.toNat
        ++ (match s.sequencer.presentation.a.limit with
          | some limit => 1 :: bigEndian 6 limit.toNat
          | none => List.replicate 7 0)
    ∧ (∀ p : Port, ((statusResult s).drop (127 + 27 * (portByte p).toNat)).take 27
        = [speedByte (s.speed p), linkByte (s.port p).link] ++ bigEndian 2 (s.sched p).presentation.gates.toNat
        ++ (match (s.sched p).presentation.limit with
          | some limit => 1 :: bigEndian 6 limit.toNat
          | none => List.replicate 7 0)
        ++ (match (s.sched p).inFlight with
          | some f => 1 :: BitVec.ofNat 8 (s.record f.record).queue.val :: bigEndian 2 (s.record f.record).length
              ++ bigEndian 6 f.start.toNat ++ bigEndian 6 f.due.toNat
          | none => List.replicate 16 0))
    ∧ ((statusResult s).drop 181).take 4
        = bigEndian 2 s.pool.freeRecords.length ++ bigEndian 2 s.pool.freeCells.length
    ∧ (∀ (p : Port) (q : QueueName), ((statusResult s).drop (185 + 36 * (portByte p).toNat + 4 * q.val)).take 4
        = bigEndian 2 (s.queue p q).frames ++ bigEndian 2 (s.queue p q).cells)
    ∧ ((statusResult s).drop 257).take 2 = [bankByte s.programs.active, if s.programs.commitPending then 1 else 0]
    ∧ ((statusResult s).drop 259).take 19
        = [BitVec.ofNat 8 s.agent.fifo.length, if s.agent.session.isOpen then 1 else 0, portByte s.agent.session.ownerPort]
        ++ bigEndian 6 s.agent.session.ownerAddress.toNat ++ bigEndian 2 s.agent.session.number.toNat
        ++ bigEndian 6 s.agent.session.leaseExpiry.toNat ++ bigEndian 2 s.agent.session.lastSequence.toNat
    ∧ (statusResult s).drop 278 = [BitVec.ofNat 8 s.notices.records.length, if s.notices.loss then 1 else 0]
        ++ bigEndian 2 s.notices.sequence.toNat

/-- R142: a WRITE_CONFIG of an identifier outside the table is refused with BAD_ARGUMENT, detail BAD_VALUE, and recorded; nothing is stored. R60,
R143, R104, R120, R178, R142: the items whose write only stores: a value in range is stored and answered OK, any other of the right size is
refused with BAD_ARGUMENT and stores nothing. R183: a value of another size than the item's is refused with BAD_LENGTH, whichever item it is; so is
a request without an identifier (log entry 17). An enable's value that is neither off nor on is refused with BAD_VALUE (its row is the model's
choice, log entry 8). -/
def Obligations.PlainItemsStored : Prop :=
  (∀ row ∈ ownerOnlyRows, ∀ (s : State) (slot : Slot) (rest : List Slot) (r : Request), s.serves row slot rest →
      r = requestOf slot → r.code = 0x03 → s.ownersNext r →
      (∀ id value item, r.args = id :: value → configIdOf id.toNat = some item → value.length ≠ item.size →
        executes row s r (Answer.badArgument .badLength) (s.owned rest))
      ∧ (r.args = [] → executes row s r (Answer.badArgument .badLength) (s.owned rest))
      ∧ (∀ id value, r.args = [id, value] → id = 0x10 ∨ id = 0x20 → 1 < value.toNat →
        executes row s r (Answer.badArgument .badValue) (s.owned rest)))
  ∧
  (∀ (s : State) (slot : Slot) (rest : List Slot) (id : Byte) (value : List Byte), s.serves .writeConfig slot rest →
      s.ownersNext (requestOf slot) → (requestOf slot).args = id :: value → configIdOf id.toNat = none →
      executes .writeConfig s (requestOf slot) (Answer.badArgument .badValue) (s.owned rest))
  ∧ (∀ (s : State) (slot : Slot) (rest : List Slot) (r : Request) (value : List Byte) (n : Nat), r = requestOf slot →
      s.ownersNext r → n = numberOf value →
      (s.serves .writeSyncOutEnable slot rest → r.args = 0x23 :: value → value.length = 1 →
        (∀ b : Bool, n = b.toNat → executes .writeSyncOutEnable s r (Answer.okay [])
          { s.owned rest with config := { s.config with syncOutEnable := b } })
        ∧ (1 < n → executes .writeSyncOutEnable s r (Answer.badArgument .badValue) (s.owned rest)))
      ∧ (s.serves .writeStationAddress slot rest → r.args = 0x01 :: value → value.length = 6 →
        ((value.getD 0 0).toNat % 2 = 0 → executes .writeStationAddress s r (Answer.okay [])
          { s.owned rest with config := { s.config with stationAddress := BitVec.ofNat 48 n } })
        ∧ ((value.getD 0 0).toNat % 2 = 1 →
          executes .writeStationAddress s r (Answer.badArgument .badValue) (s.owned rest)))
      ∧ (s.serves .writeManagementType slot rest → r.args = 0x02 :: value → value.length = 2 →
        (0x0600 ≤ n → n ≠ 0x8100 → executes .writeManagementType s r (Answer.okay [])
          { s.owned rest with config := { s.config with managementType := BitVec.ofNat 16 n } })
        ∧ (n < 0x0600 ∨ n = 0x8100 →
          executes .writeManagementType s r (Answer.badArgument .badValue) (s.owned rest)))
      ∧ (s.serves .writeDefaultAction slot rest → r.args = 0x30 :: value → value.length = 3 →
        (∀ a, value = actionBytes a → executes .writeDefaultAction s r (Answer.okay [])
          { s.owned rest with config := { s.config with defaultAction := a } })
        ∧ ((∀ a, value ≠ actionBytes a) →
          executes .writeDefaultAction s r (Answer.badArgument .badValue) (s.owned rest)))
      ∧ (∀ (p : Port) (q : QueueName) (id : Byte), s.serves .writeQuota slot rest → r.args = id :: value →
        id.toNat = (match p with | .a => 0x40 | .b => 0x50) + q.val → value.length = 2 →
        (n ≤ 512 → executes .writeQuota s r (Answer.okay [])
          { s.owned rest with config := { s.config with quotas := s.config.quotas.set p ((s.config.quotas.get p).set q n) } })
        ∧ (512 < n → executes .writeQuota s r (Answer.badArgument .badValue) (s.owned rest)))
      ∧ (s.serves .writeNoticeEnableSet slot rest → r.args = 0x60 :: value → value.length = 1 →
        (n < 128 → executes .writeNoticeEnableSet s r (Answer.okay [])
          { s.owned rest with config := { s.config with noticeEnable := BitVec.ofNat 7 n } })
        ∧ (128 ≤ n → executes .writeNoticeEnableSet s r (Answer.badArgument .badValue) (s.owned rest))))

/-- R18: a tracker item other than the enable is refused with WRONG_STATE unless the tracker is OFF; in OFF a value in its range is stored, any
other is refused with BAD_ARGUMENT; the span limits are judged against each other. -/
def Obligations.TrackerItemsStoredInOff : Prop :=
  ∀ (s : State) (slot : Slot) (rest : List Slot) (r : Request) (id : Byte) (value : List Byte) (item : ConfigId) (n : Nat),
    s.serves .writeTrackerItem slot rest → r = requestOf slot → s.ownersNext r → r.args = id :: value →
    configIdOf id.toNat = some item → value.length = item.size → n = numberOf value →
    (s.tracker.state ≠ .off → executes .writeTrackerItem s r (Answer.refuse .wrongState) (s.owned rest))
    ∧ (s.tracker.state = .off →
      (∀ p : Port, item = .cadencePort → n = (portByte p).toNat → executes .writeTrackerItem s r (Answer.okay [])
        { s.owned rest with config := { s.config with cadencePort := p } })
      ∧ (item = .depth → n ∈ [1, 2, 4, 8, 16] → executes .writeTrackerItem s r (Answer.okay [])
        { s.owned rest with config := { s.config with depth := n } })
      ∧ (item = .window → 1 ≤ n → n ≤ 128 → executes .writeTrackerItem s r (Answer.okay [])
        { s.owned rest with config := { s.config with window := n } })
      ∧ (item = .holdover → n ≤ 15 → executes .writeTrackerItem s r (Answer.okay [])
        { s.owned rest with config := { s.config with holdover := n } })
      ∧ (item = .spanMin → 1000 ≤ n → n ≤ s.config.spanMax → executes .writeTrackerItem s r (Answer.okay [])
        { s.owned rest with config := { s.config with spanMin := n } })
      ∧ (item = .spanMax → s.config.spanMin ≤ n → n ≤ 125000000 → executes .writeTrackerItem s r (Answer.okay [])
        { s.owned rest with config := { s.config with spanMax := n } })
      ∧ ((item = .cadencePort ∧ 1 < n) ∨ (item = .depth ∧ n ∉ [1, 2, 4, 8, 16]) ∨ (item = .window ∧ ¬(1 ≤ n ∧ n ≤ 128))
          ∨ (item = .holdover ∧ 15 < n) ∨ (item = .spanMin ∧ ¬(1000 ≤ n ∧ n ≤ s.config.spanMax))
          ∨ (item = .spanMax ∧ ¬(s.config.spanMin ≤ n ∧ n ≤ 125000000)) →
        executes .writeTrackerItem s r (Answer.badArgument .badValue) (s.owned rest)))

/-- R5, R6, R16: the tracker enable. On moves OFF to SEEKING and is otherwise only stored; off clears the tracker to OFF, with a lock loss from
LOCKED or HOLDOVER, which counts once, drives LOCK low, takes a sequencer that follows a program to FREE with a pending commit applied and a pending
transition counted as a settle cancel (R52), and raises LOCK_LOST with DISABLED, then COMMIT_DONE with FREE_ENTRY (R19, R167, R171). -/
def Obligations.TrackerEnableWritten : Prop :=
  ∀ (s : State) (slot : Slot) (rest : List Slot) (r : Request), r = requestOf slot → s.ownersNext r →
    (s.serves .trackerEnableOn slot rest →
      executes .trackerEnableOn s r (Answer.okay []) { s.owned rest with
        config := { s.config with trackerEnable := true }
        tracker := (if s.tracker.state = .off then
          ⟨.seeking, [], 0, none, s.tracker.boundary, 0, false, none⟩ else s.tracker) })
    ∧ (s.serves .trackerEnableOff slot rest →
      ∃ u, executes .trackerEnableOff s r (Answer.okay []) u
        ∧ ({ s.owned rest with config := { s.config with trackerEnable := false } } : State).sameButCadence u
        ∧ (s.tracker.state = .off → u = { s.owned rest with config := { s.config with trackerEnable := false } })
        ∧ (s.tracker.state = .seeking ∨ s.tracker.state = .acquiring → u = { s.owned rest with
            config := { s.config with trackerEnable := false }
            tracker := ⟨.off, [], 0, none, s.tracker.boundary, 0, false, none⟩ })
        ∧ (s.tracker.state.isLocked = true →
            u = lockLoss .disabled { s.owned rest with config := { s.config with trackerEnable := false } }
              ∧ u.tracker = ⟨.off, [], 0, none, s.tracker.boundary, 0, false, none⟩
              ∧ u.pins = { s.pins with lock := false }
              ∧ u.counters.sequencer = s.lossCounters
              ∧ u.counters.tracker = { s.counters.tracker with lockLosses := Count.up s.counters.tracker.lockLosses }
              ∧ u.sequencer = s.lossSequencer ∧ u.programs = s.lossPrograms
              ∧ ({ s.owned rest with config := { s.config with trackerEnable := false } } : State).raises
                  s.lossCycle (s.lossNotices .disabled) u))

/-- R42, R43, R167: the sequencer enable and the free gate sets. On moves STOPPED to FREE; off stops the walk, presents the free gate sets,
keeps the cycle number and applies a pending commit, with COMMIT_DONE at STOPPED_ENTRY raised (R171); a free gate set is presented at once in
STOPPED and FREE and only stored otherwise. What is presented is delivered as gate changes (R40). -/
def Obligations.SequencerItemsWritten : Prop :=
  ∀ (s : State) (slot : Slot) (rest : List Slot) (r : Request), r = requestOf slot → s.ownersNext r →
    (s.serves .sequencerEnableOn slot rest →
      executes .sequencerEnableOn s r (Answer.okay []) { s.owned rest with
        config := { s.config with sequencerEnable := true }
        sequencer := (if s.sequencer.state = .stopped then { s.sequencer with state := .free } else s.sequencer) })
    ∧ (s.serves .sequencerEnableOff slot rest →
      ∃ u, executes .sequencerEnableOff s r (Answer.okay []) u
        ∧ ({ s.owned rest with config := { s.config with sequencerEnable := false } } : State).sameButWalk u
        ∧ u.pins = s.pins
        ∧ (s.sequencer.state.follows = false → u = { s.owned rest with
            config := { s.config with sequencerEnable := false }
            sequencer := { s.sequencer with state := .stopped } })
        ∧ (s.sequencer.state.follows = true →
            (∃ v w, v = leaveEntry { s.owned rest with config := { s.config with sequencerEnable := false } }
              ∧ w = { v with sequencer := { v.sequencer with state := .stopped } }
              ∧ u = applyPendingCommit .stoppedEntry s.sequencer.cycle
                (presentBoth ⟨⟨s.config.freeGates.a, none⟩, ⟨s.config.freeGates.b, none⟩⟩ w))
            ∧ u.sequencer = { s.sequencer with
              state := .stopped, deadline := none, settle := none, stepSeen := false, pending := none
              presentation := ⟨⟨s.config.freeGates.a, none⟩, ⟨s.config.freeGates.b, none⟩⟩ }
            ∧ u.programs = (if s.programs.commitPending then
                { s.programs with active := s.programs.staged, commitPending := false } else s.programs)
            ∧ ({ s.owned rest with config := { s.config with sequencerEnable := false } } : State).raises s.sequencer.cycle
                (if s.programs.commitPending then [.commitDone s.programs.staged .stoppedEntry] else []) u
            ∧ u.counters.sequencer = { s.counters.sequencer with
                settleCancels := (if s.sequencer.pending = none then s.counters.sequencer.settleCancels
                  else Count.up s.counters.sequencer.settleCancels) }))
    ∧ (∀ (p : Port) (value : List Byte) (n : Nat), s.serves .writeFreeGateSet slot rest →
      r.args = (match p with | .a => 0x21 | .b => 0x22) :: value → value.length = 2 → n = numberOf value →
      (512 ≤ n → executes .writeFreeGateSet s r (Answer.badArgument .badValue) (s.owned rest))
      ∧ (n < 512 → ∀ w, w = { s.owned rest with
            config := { s.config with freeGates := s.config.freeGates.set p (BitVec.ofNat 9 n) } } →
          (s.sequencer.state.follows = true → executes .writeFreeGateSet s r (Answer.okay []) w)
          ∧ (s.sequencer.state.follows = false →
            ∃ u, executes .writeFreeGateSet s r (Answer.okay []) u
              ∧ u = presentBoth ⟨⟨w.config.freeGates.a, none⟩, ⟨w.config.freeGates.b, none⟩⟩ w
              ∧ u.sequencer = { s.sequencer with
                  presentation := ⟨⟨w.config.freeGates.a, none⟩, ⟨w.config.freeGates.b, none⟩⟩ }
              ∧ u.config = w.config ∧ w.sameButWalk u ∧ u.programs = s.programs ∧ u.pins = s.pins
              ∧ u.notices = s.notices ∧ (s.presentationsAgree → u.presentationsAgree))))

/-- R110, R111, R183, R184: WRITE_MATCH without a first index and a count is refused with BAD_LENGTH; else it judges the range, the length and the
records in this order; accepted, it replaces the entries from the first index on, with their hit counts 0, and no others. Which field of a record
fails first, and what an accepted one holds, RecordsReadBack says. -/
def Obligations.MatchEntriesWritten : Prop :=
  ∀ (s : State) (slot : Slot) (rest : List Slot) (r : Request) (first count : Byte) (body : List Byte),
    s.serves .writeMatch slot rest → r = requestOf slot → s.ownersNext r →
    (r.args.length < 2 → executes .writeMatch s r (Answer.badArgument .badLength) (s.owned rest))
    ∧ (r.args = first :: count :: body →
      (¬(1 ≤ count.toNat ∧ count.toNat ≤ 8 ∧ first.toNat ≤ 63 ∧ first.toNat + count.toNat ≤ 64) →
        executes .writeMatch s r (Answer.badArgument .badRange) (s.owned rest))
      ∧ (1 ≤ count.toNat ∧ count.toNat ≤ 8 ∧ first.toNat ≤ 63 ∧ first.toNat + count.toNat ≤ 64 →
        (body.length ≠ count.toNat * 25 → executes .writeMatch s r (Answer.badArgument .badLength) (s.owned rest))
        ∧ (∀ k field, body.length = count.toNat * 25 → k < count.toNat →
          readMatchRecord ((body.drop (k * 25)).take 25) = .error field →
          (∀ j < k, ∃ e, readMatchRecord ((body.drop (j * 25)).take 25) = .ok e) →
          executes .writeMatch s r (Answer.badArgument (.badField (first.toNat + k) field)) (s.owned rest))
        ∧ (body.length = count.toNat * 25 →
          (∀ j < count.toNat, ∃ e, readMatchRecord ((body.drop (j * 25)).take 25) = .ok e) →
          ∃ c, executes .writeMatch s r (Answer.okay [first, count]) { s.owned rest with classifier := c }
            ∧ (∀ i : MatchIndex, first.toNat ≤ i.val → i.val < first.toNat + count.toNat →
                readMatchRecord ((body.drop ((i.val - first.toNat) * 25)).take 25) = .ok (c.entry i) ∧ c.hit i = 0)
            ∧ (∀ i : MatchIndex, ¬(first.toNat ≤ i.val ∧ i.val < first.toNat + count.toNat) →
                c.entry i = s.classifier.entry i ∧ c.hit i = s.classifier.hit i))))

/-- R32, R33, R35, R183, R184: WRITE_PROGRAM is refused with STAGED_LOCKED while a commit is pending, then with BAD_LENGTH without a first index and
a count, then judges the range, the length and the records; accepted, it replaces the entries of the staged bank from the first index on, and no
others; the active bank stands. R34, R35, R183: WRITE_PROGRAM_HEADER is refused with STAGED_LOCKED while a commit is pending, and with BAD_LENGTH
unless it has five values; otherwise it replaces the whole header of the staged bank with the five values as given. Which field of an entry record
fails first, and what an accepted one holds, RecordsReadBack says. -/
def Obligations.StagedBankWritten : Prop :=
  (∀ (s : State) (slot : Slot) (rest : List Slot) (r : Request),
      s.serves .writeProgram slot rest → r = requestOf slot → s.ownersNext r →
      (s.programs.commitPending = true → executes .writeProgram s r (Answer.refuse .stagedLocked) (s.owned rest))
      ∧ (s.programs.commitPending = false → r.args.length < 2 →
        executes .writeProgram s r (Answer.badArgument .badLength) (s.owned rest))
      ∧ ∀ (first count : Byte) (body : List Byte), s.programs.commitPending = false → r.args = first :: count :: body →
        (¬(1 ≤ count.toNat ∧ count.toNat ≤ 8 ∧ first.toNat ≤ 31 ∧ first.toNat + count.toNat ≤ 32) →
          executes .writeProgram s r (Answer.badArgument .badRange) (s.owned rest))
        ∧ (1 ≤ count.toNat ∧ count.toNat ≤ 8 ∧ first.toNat ≤ 31 ∧ first.toNat + count.toNat ≤ 32 →
          (body.length ≠ count.toNat * 13 → executes .writeProgram s r (Answer.badArgument .badLength) (s.owned rest))
          ∧ (∀ k field, body.length = count.toNat * 13 → k < count.toNat →
            readEntryRecord ((body.drop (k * 13)).take 13) = .error field →
            (∀ j < k, ∃ e, readEntryRecord ((body.drop (j * 13)).take 13) = .ok e) →
            executes .writeProgram s r (Answer.badArgument (.badField (first.toNat + k) field)) (s.owned rest))
          ∧ (body.length = count.toNat * 13 →
            (∀ j < count.toNat, ∃ e, readEntryRecord ((body.drop (j * 13)).take 13) = .ok e) →
            ∃ ps : ProgramStore,
              executes .writeProgram s r (Answer.okay [first, count]) { s.owned rest with programs := ps }
              ∧ ps.active = s.programs.active ∧ ps.commitPending = false
              ∧ ps.activeBank = s.programs.activeBank ∧ ps.stagedBank.header = s.programs.stagedBank.header
              ∧ (∀ i : EntryIndex, first.toNat ≤ i.val → i.val < first.toNat + count.toNat →
                  readEntryRecord ((body.drop ((i.val - first.toNat) * 13)).take 13) = .ok (ps.stagedBank.entry i))
              ∧ (∀ i : EntryIndex, ¬(first.toNat ≤ i.val ∧ i.val < first.toNat + count.toNat) →
                  ps.stagedBank.entry i = s.programs.stagedBank.entry i))))
  ∧ (∀ (s : State) (slot : Slot) (rest : List Slot) (r : Request),
      s.serves .writeProgramHeader slot rest → r = requestOf slot → s.ownersNext r →
      (s.programs.commitPending = true → executes .writeProgramHeader s r (Answer.refuse .stagedLocked) (s.owned rest))
      ∧ (s.programs.commitPending = false → r.args.length ≠ 5 →
        executes .writeProgramHeader s r (Answer.badArgument .badLength) (s.owned rest))
      ∧ ∀ p a b c d : Byte, s.programs.commitPending = false → r.args = [p, a, b, c, d] →
        ∃ ps : ProgramStore, executes .writeProgramHeader s r (Answer.okay []) { s.owned rest with programs := ps }
          ∧ ps.active = s.programs.active ∧ ps.commitPending = false ∧ ps.activeBank = s.programs.activeBank
          ∧ ps.stagedBank = { s.programs.stagedBank with header := ⟨p, #v[a, b, c, d]⟩ })

/-- Section 12.4: the encoding of the reasons of PROGRAM_INVALID. R162, R163, R164, R165, R171: COMMIT is refused with COMMIT_PENDING while one is
pending, then with PROGRAM_INVALID when validation finds a fault; a well-formed bank is swapped at once in STOPPED and FREE, with APPLIED and a
COMMIT_DONE notice, and else becomes pending, with PENDING. R169, R171: CANCEL_COMMIT withdraws a pending commit, with a COMMIT_CANCELLED notice,
the roles and the banks standing; with none pending it is refused with NO_COMMIT and nothing changes. R165 to R167: where a pending commit is
applied, the roles are exchanged, the record becomes absent, and COMMIT_DONE is raised with the bank that is active now and the occasion; without
one nothing changes. -/
def Obligations.CommitAndCancel : Prop :=
  [.badPeriod, .badStart, .nonIncreasing, .noTail].map faultReasonByte = [1, 2, 3, 4]
  ∧ (∀ (o : Occasion) (cycle : Count) (s : State), applyPendingCommit o cycle s =
      if s.programs.commitPending then
        raiseNotice (.commitDone s.programs.staged o) cycle
          { s with programs := { s.programs with active := s.programs.staged, commitPending := false } }
      else s)
  ∧ (∀ (s : State) (slot : Slot) (rest : List Slot) (r : Request),
      s.serves .commit slot rest → r = requestOf slot → s.ownersNext r → r.args = [] →
      (s.programs.commitPending = true → executes .commit s r (Answer.refuse .commitPending) (s.owned rest))
      ∧ (∀ f, s.programs.commitPending = false → validate s.programs.stagedBank = some f →
        executes .commit s r ⟨.programInvalid, 0,
          [faultReasonByte f.reason, BitVec.ofNat 8 f.position, BitVec.ofNat 8 f.index]⟩ (s.owned rest))
      ∧ (s.programs.commitPending = false → s.programs.stagedBank.wellFormed = true →
        (s.sequencer.state.follows = true →
          executes .commit s r ⟨.ok, 0x0008, [bankByte s.programs.staged]⟩
            { s.owned rest with programs := { s.programs with commitPending := true } })
        ∧ (s.sequencer.state.follows = false →
          executes .commit s r ⟨.ok, 0x0004, [bankByte s.programs.staged]⟩
            (raiseNotice (.commitDone s.programs.staged .immediate) s.sequencer.cycle
              { s.owned rest with programs := { s.programs with active := s.programs.staged, commitPending := false } }))))
  ∧ (∀ (s : State) (slot : Slot) (rest : List Slot) (r : Request),
      s.serves .cancelCommit slot rest → r = requestOf slot → s.ownersNext r → r.args = [] →
      (s.programs.commitPending = true →
        executes .cancelCommit s r (Answer.okay [])
          (raiseNotice (.commitCancelled s.programs.staged) s.sequencer.cycle
            { s.owned rest with programs := { s.programs with commitPending := false } }))
      ∧ (s.programs.commitPending = false → executes .cancelCommit s r (Answer.refuse .noCommit) (s.owned rest)))

/-- R56, R57, R40: HALT in RUNNING cancels the waits, freezes the presented gate sets without a guard limit, delivering the gate changes, and keeps
the walk's place; RESUME in
HALTED moves to REJOINING and changes nothing else; elsewhere both are refused with WRONG_STATE. -/
def Obligations.HaltAndResume : Prop :=
  ∀ (s : State) (slot : Slot) (rest : List Slot) (r : Request), r = requestOf slot → s.ownersNext r → r.args = [] →
    (s.serves .halt slot rest →
      (s.sequencer.state = .running →
        ∃ v w u, executes .halt s r (Answer.okay []) u
          ∧ v = leaveEntry (s.owned rest) ∧ w = { v with sequencer := { v.sequencer with state := .halted } }
          ∧ u = presentBoth
              ⟨⟨s.sequencer.presentation.a.gates, none⟩, ⟨s.sequencer.presentation.b.gates, none⟩⟩ w
          ∧ (s.owned rest).sameButWalk u
          ∧ u.sequencer = { s.sequencer with
              state := .halted, deadline := none, settle := none, stepSeen := false, pending := none
              presentation := ⟨⟨s.sequencer.presentation.a.gates, none⟩, ⟨s.sequencer.presentation.b.gates, none⟩⟩ }
          ∧ u.programs = s.programs ∧ u.pins = s.pins ∧ u.notices = s.notices
          ∧ (s.presentationsAgree → u.presentationsAgree)
          ∧ u.counters.sequencer = { s.counters.sequencer with
              settleCancels := (if s.sequencer.pending = none then s.counters.sequencer.settleCancels
                else Count.up s.counters.sequencer.settleCancels) })
      ∧ (s.sequencer.state ≠ .running → executes .halt s r (Answer.refuse .wrongState) (s.owned rest)))
    ∧ (s.serves .resume slot rest →
      (s.sequencer.state = .halted →
        executes .resume s r (Answer.okay []) { s.owned rest with sequencer := { s.sequencer with state := .rejoining } })
      ∧ (s.sequencer.state ≠ .halted → executes .resume s r (Answer.refuse .wrongState) (s.owned rest)))

/-- R173, section 12.4: the 23 groups by their selectors, and the counters of each in order. R175: READ_COUNTERS with CLEAR returns the counters
of the group and sets them to 0 in one step, and no others. R173: a counter rises by one, never falls, and stays at 4,294,967,295. -/
def Obligations.CountersClearedAndSaturating : Prop :=
  ((∀ n g, groupOf n = some g ↔
        (n = 0x00 ∧ g = .port .a) ∨ (n = 0x01 ∧ g = .port .b)
        ∨ (∃ q : QueueName, n = 0x10 + q.val ∧ g = .queue .a q) ∨ (∃ q : QueueName, n = 0x20 + q.val ∧ g = .queue .b q)
        ∨ (n = 0x30 ∧ g = .tracker) ∨ (n = 0x31 ∧ g = .sequencer) ∨ (n = 0x32 ∧ g = .agent))
    ∧ ∀ (c : Counters) (p : Port) (q : QueueName),
      (∀ x, x = c.ports.get p → groupValues c (.port p) = [x.goodReceived, x.runts, x.giants, x.checkErrors, x.transmitted,
        x.linkDiscards, x.guardHolds, x.overruns])
      ∧ (∀ x, x = (c.queues.get p)[q] →
        groupValues c (.queue p q) = [x.admitted, x.noRecord, x.poolEmpty, x.quota, x.flushed])
      ∧ groupValues c .tracker = [c.tracker.acceptedMarks, c.tracker.earlyMarks, c.tracker.missingMarks,
        c.tracker.runtSpans, c.tracker.offPortMarks, c.tracker.lockLosses]
      ∧ groupValues c .sequencer = [c.sequencer.cycles, c.sequencer.truncations, c.sequencer.skippedEntries,
        c.sequencer.stepTimeouts, c.sequencer.straySteps, c.sequencer.settleCancels, c.sequencer.heldBoundaries]
      ∧ groupValues c .agent = [c.agent.requestsTaken, c.agent.fifoOverflows, c.agent.shortFrames, c.agent.requestsRefused,
        c.agent.responsesLost, c.agent.noticesLost])
  ∧ (∀ (s : State) (slot : Slot) (rest : List Slot) (r : Request) (selector : Byte),
      s.serves .readCountersClear slot rest → r = requestOf slot → s.ownersNext r → r.args = [selector] →
      (∀ g, groupOf selector.toNat = some g →
        ∃ c, executes .readCountersClear s r
            (Answer.okay (selector :: (groupValues s.counters g).flatMap (fun v => bigEndian 4 v.toNat)))
            { s.owned rest with counters := c }
          ∧ (∀ v ∈ groupValues c g, v = 0) ∧ ∀ g', g' ≠ g → groupValues c g' = groupValues s.counters g')
      ∧ (groupOf selector.toNat = none →
        executes .readCountersClear s r (Answer.badArgument .badValue) (s.owned rest)))
  ∧ (∀ c : Count, (c.toNat < 4294967295 → (Count.up c).toNat = c.toNat + 1)
      ∧ (c.toNat = 4294967295 → Count.up c = c) ∧ c.toNat ≤ (Count.up c).toNat)

/-! ### Sessions -/

/-- R151, R152, R153, R157: OPEN_SESSION judges the source, the lease and the state; with no session it opens one with the next number; with one
open it is answered SESSION_HELD and changes nothing. -/
def Obligations.SessionOpened : Prop :=
  ∀ (s : State) (slot : Slot) (rest : List Slot) (r : Request) (ms : Nat) (value : List Byte) (u : State),
    s.serves .openSession slot rest → r = requestOf slot → r.args = value → value.length = 4 → ms = numberOf value →
    u = { s with agent := { s.agent with fifo := rest, serviced := true } } →
    (r.source.getLsbD 40 = true ∨ ¬(ms = 0 ∨ 1000 ≤ ms ∧ ms ≤ 300000) →
      answers .openSession s r (Answer.badArgument .badValue) u)
    ∧ (r.source.getLsbD 40 = false → ms = 0 ∨ 1000 ≤ ms ∧ ms ≤ 300000 →
      (s.agent.session.isOpen = true →
        answers .openSession s r ⟨.sessionHeld, 0, bigEndian 6 s.agent.session.ownerAddress.toNat
          ++ [portByte s.agent.session.ownerPort]
          ++ bigEndian 4 ((s.agent.session.leaseExpiry - s.time).toNat / 125000)⟩ u)
      ∧ (s.agent.session.isOpen = false →
        ∀ length due, length = (if ms = 0 then 30000 else ms) → due = Time.plus s.time (length * 125000) →
          answers .openSession s r
            (Answer.okay (bigEndian 2 (s.agent.session.number + 1).toNat ++ bigEndian 4 length))
            { u with agent := { u.agent with
              session := ⟨true, r.source, r.port, s.agent.session.number + 1, length, due, r.sequence, some due⟩ } }))

/-- R154, R155, R179, R180: RENEW sets the length, restarts the lease, moves the owner port and offers the waiting notices; an illegal length is
refused. CLOSE_SESSION ends the session after it is recorded: no session, no lease wait, no replay record, no notices. -/
def Obligations.SessionRenewedOrClosed : Prop :=
  ∀ (s : State) (slot : Slot) (rest : List Slot) (r : Request), r = requestOf slot → s.ownersNext r →
    (∀ (ms : Nat) (value : List Byte), s.serves .renew slot rest → r.args = value → value.length = 4 → ms = numberOf value →
      (¬(ms = 0 ∨ 1000 ≤ ms ∧ ms ≤ 300000) →
        executes .renew s r (Answer.badArgument .badValue) (s.owned rest))
      ∧ (ms = 0 ∨ 1000 ≤ ms ∧ ms ≤ 300000 →
        ∀ length due, length = (if ms = 0 then s.agent.session.leaseMs else ms) → due = Time.plus s.time (length * 125000) →
          executes .renew s r (Answer.okay (bigEndian 4 length ++ bigEndian 6 due.toNat))
            (offerAllNotices { s with agent := { s.agent with
              fifo := rest
              serviced := true
              session := { s.agent.session with
                ownerPort := r.port, leaseMs := length, leaseExpiry := due, leaseWait := some due } } })))
    ∧ (s.serves .closeSession slot rest → r.args = [] →
      answers .closeSession s r (Answer.okay []) { s with
        agent := { s.agent with
          fifo := rest
          serviced := true
          replay := none
          session := { s.agent.session with
            isOpen := false, leaseWait := none, lastSequence := r.sequence
            leaseExpiry := Time.plus s.time (s.agent.session.leaseMs * 125000) } }
        notices := ⟨[], s.notices.sequence, false⟩ })

/-- R156, R155: the lease expiry ends the session: no session, no lease wait, no replay record, no notices; nothing else changes and nothing is
sent or counted. One that is not due does nothing. -/
def Obligations.LeaseExpires : Prop :=
  ∀ s : State, s.inReset = false →
    (s.agent.session.isOpen = true → s.agent.session.leaseWait = some s.time →
      exec .leaseExpiry s = .next { s with
        agent := { s.agent with replay := none, session := { s.agent.session with isOpen := false, leaseWait := none } }
        notices := ⟨[], s.notices.sequence, false⟩ })
    ∧ (s.agent.session.leaseWait ≠ some s.time → exec .leaseExpiry s = .next s)

/-! ### Notices -/

/-- R178: a raised notice is discarded without a session or when its kind is not enabled, dropped and counted with the loss flag set at a full
queue, and otherwise joins the back, with the part time and the cycle number, and the head is offered. R179, R180: an offer of the head.
Accepted, the head leaves, the notice sequence rises by one, the loss flag is cleared and the next head is offered; refused, nothing changes.
The frame is the owner's, 64 bytes, with the management type, the loss-before flag when the flag is set, and a check sequence that passes (its
padding is the model's choice, log entry 23). Sections 12.1 and 12.2: the kinds, the detail bytes and their encodings. -/
def Obligations.NoticesRaisedAndOffered : Prop :=
  (∀ (d : NoticeDetail) (cycle : Count) (s : State),
      (s.agent.session.isOpen = false ∨ s.config.noticeEnable.getLsbD (d.kind - 1) = false → raiseNotice d cycle s = s)
      ∧ (s.agent.session.isOpen = true → s.config.noticeEnable.getLsbD (d.kind - 1) = true →
        (8 ≤ s.notices.records.length →
          raiseNotice d cycle s = ({ s with notices := { s.notices with loss := true } }).countAgent
            (fun c => { c with noticesLost := Count.up c.noticesLost }))
        ∧ (s.notices.records.length < 8 →
          raiseNotice d cycle s = offerAllNotices
            { s with notices := { s.notices with records := s.notices.records ++ [⟨d, s.time, cycle⟩] } })))
  ∧ (∀ (s : State) (n : Notice) (rest : List Notice), s.notices.records = n :: rest →
      (noticeFrame s n).length = 64
      ∧ checkPasses (noticeFrame s n) = true
      ∧ (s.config.managementType ≠ 0x8100 →
          (frameFields (noticeFrame s n)).etherType = s.config.managementType
            ∧ (frameFields (noticeFrame s n)).tag = none)
      ∧ ((noticeFrame s n).drop 14).take 30
          = [1, 0x80, 0, 30] ++ bigEndian 2 s.notices.sequence.toNat ++ bigEndian 2 s.agent.session.number.toNat
            ++ [0, if s.notices.loss then 0x10 else 0] ++ [BitVec.ofNat 8 n.detail.kind, 0]
            ++ bigEndian 6 n.time.toNat ++ bigEndian 4 n.cycle.toNat ++ noticeDetailBytes n.detail
      ∧ (frameFields (noticeFrame s n)).destination = s.agent.session.ownerAddress
      ∧ (frameFields (noticeFrame s n)).source = s.config.stationAddress
      ∧ (admissionVerdict s.agent.session.ownerPort queueM 64 s = none →
          offerAllNotices s = offerAllNotices
            { acceptFrame s.agent.session.ownerPort queueM (noticeFrame s n) s with
              notices := ⟨rest, s.notices.sequence + 1, false⟩ })
      ∧ (admissionVerdict s.agent.session.ownerPort queueM 64 s ≠ none → offerAllNotices s = s))
  ∧ (∀ (ref : Nat) (b : Time) (cause : LossCause) (bank : BankId) (o : Occasion) (p : Port) (l : Link),
      [.lockAcquired ref, .lockRegained ref, .holdoverEntered b, .lockLost cause, .commitDone bank o, .commitCancelled bank,
        .linkChange p l].map NoticeDetail.kind = [1, 2, 3, 4, 5, 6, 7]
      ∧ noticeDetailBytes (.lockAcquired ref) = bigEndian 4 ref ++ [0, 0, 0, 0]
      ∧ noticeDetailBytes (.lockRegained ref) = bigEndian 4 ref ++ [0, 0, 0, 0]
      ∧ noticeDetailBytes (.holdoverEntered b) = bigEndian 6 b.toNat ++ [0, 0]
      ∧ noticeDetailBytes (.lockLost cause) = [lossCauseByte cause, 0, 0, 0, 0, 0, 0, 0]
      ∧ noticeDetailBytes (.commitDone bank o) = [bankByte bank, occasionByte o, 0, 0, 0, 0, 0, 0]
      ∧ noticeDetailBytes (.commitCancelled bank) = [bankByte bank, 0, 0, 0, 0, 0, 0, 0]
      ∧ noticeDetailBytes (.linkChange p l) = [portByte p, linkByte l, 0, 0, 0, 0, 0, 0])
  ∧ [.missing, .disabled, .linkDown, .trafficReset].map lossCauseByte = [0, 1, 2, 3]
  ∧ [.immediate, .cycleStart, .freeEntry, .stoppedEntry].map occasionByte = [0, 1, 2, 3]
  ∧ [BankId.bank0, .bank1].map bankByte = [0, 1] ∧ [Port.a, .b].map portByte = [0, 1] ∧ [Link.down, .up].map linkByte = [0, 1]

/-! ### Records as bytes -/

/-- R101, R110, R184, section 12.3: a Match Table entry written out as its 25 bytes is read back as itself, whatever its fields. R26, R27, R32,
R184, section 12.3: a legal program entry written out as its 13 bytes is read back as itself, and whatever is read is legal. R182, section 12.3:
the bytes of numbers, most significant first, and those of both records, field by field. R110, R32, R184: of any record the first field that fails,
in the order of examination, gives the field number; a record with none is read, and holds what its bytes say. -/
def Obligations.RecordsReadBack : Prop :=
  ((∀ n v, bigEndian 0 v = [] ∧ bigEndian (n + 1) v = BitVec.ofNat 8 (v / 256 ^ n) :: bigEndian n v)
    ∧ (∀ (b : Byte) (l : List Byte), numberOf [] = 0 ∧ numberOf (b :: l) = b.toNat * 256 ^ l.length + numberOf l)
    ∧ (∀ n v, v < 256 ^ n → numberOf (bigEndian n v) = v)
    ∧ (∀ e : MatchEntry, matchRecordBytes e =
        [if e.valid then (1 : Byte) else 0, match e.ingress with | .portA => 0 | .portB => 1 | .either => 2]
          ++ bigEndian 6 e.value.toNat ++ bigEndian 6 e.mask.toNat
          ++ (match e.etherType with | some x => 1 :: bigEndian 2 x.toNat | none => [0, 0, 0])
          ++ bigEndian 2 e.priorities.toNat
          ++ (match e.vlan with | some x => 1 :: bigEndian 2 x.toNat | none => [0, 0, 0])
          ++ actionBytes e.action)
    ∧ (∀ a : Action, actionBytes a =
        [match a.disposition with | .forward => 0 | .discard => 1,
          match a.classChoice with | .fixed k => BitVec.ofNat 8 k.val | .fromPriority => 8,
          match a.mark with | .noMark => 0 | .cycle => 1 | .step => 2])
    ∧ (∀ (g : Pair GateSet) (guarded : Bool) (body : List Byte),
        body = bigEndian 2 g.a.toNat ++ bigEndian 2 g.b.toNat ++ [if guarded then 1 else 0] →
        (∀ off next, entryRecordBytes ⟨g, guarded, .timed off next⟩
            = 0 :: body ++ 1 :: bigEndian 2 off ++ [0, 0, 1, BitVec.ofNat 8 next.val])
        ∧ (∀ off settle next, entryRecordBytes ⟨g, guarded, .step off settle next⟩
            = 1 :: body ++ 1 :: bigEndian 2 off ++ [1, settle, 1, BitVec.ofNat 8 next.val])
        ∧ entryRecordBytes ⟨g, guarded, .tail⟩ = 2 :: body ++ [0, 0, 0, 0, 0, 0, 0]))
  ∧ (∀ e : MatchEntry, (matchRecordBytes e).length = 25 ∧ readMatchRecord (matchRecordBytes e) = .ok e)
  ∧ ((∀ e : Entry, e.wellFormed = true → (entryRecordBytes e).length = 13 ∧ readEntryRecord (entryRecordBytes e) = .ok e)
      ∧ ∀ (b : List Byte) (e : Entry), readEntryRecord b = .ok e → e.wellFormed = true)
  ∧ (∀ (b : List Byte) (f : Nat → Nat → Nat) (failing : Option Nat), (∀ off n, f off n = numberOf ((b.drop off).take n)) →
      failing = firstFailing
        [(0, 1 < f 0 1), (1, 2 < f 1 1), (4, 1 < f 14 1), (5, 512 ≤ f 17 2), (6, 1 < f 19 1 ∨ f 19 1 = 1 ∧ 4095 < f 20 2),
          (7, 1 < f 22 1), (8, 8 < f 23 1), (9, 2 < f 24 1)] →
      (∀ k, readMatchRecord b = .error k ↔ failing = some k)
      ∧ (failing = none → ∃ e, readMatchRecord b = .ok e
        ∧ e.valid = decide (f 0 1 = 1)
        ∧ [Ingress.portA, .portB, .either][f 1 1]? = some e.ingress
        ∧ e.value.toNat = f 2 6 ∧ e.mask.toNat = f 8 6
        ∧ e.etherType.map BitVec.toNat = (if f 14 1 = 1 then some (f 15 2) else none)
        ∧ e.priorities.toNat = f 17 2
        ∧ e.vlan.map BitVec.toNat = (if f 19 1 = 1 then some (f 20 2) else none)
        ∧ [Disposition.forward, .discard][f 22 1]? = some e.action.disposition
        ∧ [ClassChoice.fixed 0, .fixed 1, .fixed 2, .fixed 3, .fixed 4, .fixed 5, .fixed 6, .fixed 7, .fromPriority][f 23 1]?
            = some e.action.classChoice
        ∧ [MarkKind.noMark, .cycle, .step][f 24 1]? = some e.action.mark))
  ∧ (∀ (b : List Byte) (f : Nat → Nat → Nat) (failing : Option Nat), (∀ off n, f off n = numberOf ((b.drop off).take n)) →
      failing = firstFailing
        [(0, 2 < f 0 1), (1, 512 ≤ f 1 2), (2, 512 ≤ f 3 2), (3, 1 < f 5 1),
          (4, f 6 1 ≠ (if f 0 1 = 2 then 0 else 1) ∨ f 0 1 ≠ 2 ∧ ¬(1 ≤ f 7 2 ∧ f 7 2 ≤ 1023)),
          (5, f 9 1 ≠ (if f 0 1 = 1 then 1 else 0)),
          (6, f 11 1 ≠ (if f 0 1 = 2 then 0 else 1) ∨ f 0 1 ≠ 2 ∧ 31 < f 12 1)] →
      (∀ k, readEntryRecord b = .error k ↔ failing = some k)
      ∧ (failing = none → ∃ e, readEntryRecord b = .ok e
        ∧ e.gates.a.toNat = f 1 2 ∧ e.gates.b.toNat = f 3 2 ∧ e.guarded = decide (f 5 1 = 1)
        ∧ (f 0 1 = 0 → ∃ next, next.val = f 12 1 ∧ e.ending = .timed (f 7 2) next)
        ∧ (f 0 1 = 1 → ∃ settle next, settle.toNat = f 10 1 ∧ next.val = f 12 1 ∧ e.ending = .step (f 7 2) settle next)
        ∧ (f 0 1 = 2 → e.ending = .tail)))

/-! ### What every step keeps -/

/-- The cells' memory keeps its canonical form in every step. -/
def Obligations.StepKeepsCellsCanonical : Prop :=
  ∀ s t : State, s.cellsCanonical → step s = .next t → t.cellsCanonical

/-- R22, R60, R79: every step keeps LOCK high exactly in LOCKED and HOLDOVER, SYNC_OUT high exactly while its wait is held, and the two records of
each presentation equal; both outputs are low while RESET_N is. -/
def Obligations.StepKeepsOutputs : Prop :=
  ∀ s t : State, step s = .next t →
    (s.lockPinFollows → t.lockPinFollows) ∧ (s.syncOutFollows → t.syncOutFollows)
      ∧ (s.presentationsAgree → t.presentationsAgree)
      ∧ (s.resetHeld → t.inReset = true → t.pins.lock = false ∧ t.pins.syncOut = false)

/-- R2, R100, R177: every step keeps the FIFO within 4 requests, the notice queue within 8 notices, and the history within 16 spans, as many as
captured. R150, R155: every step keeps the session record sound: without a session no lease wait, no replay record, no notice; with one, the
wait is at the expiry time. -/
def Obligations.StepKeepsCapacitiesAndSession : Prop :=
  (∀ s t : State, s.capacitiesKept → step s = .next t → t.capacitiesKept)
  ∧ (∀ s t : State, s.sessionSound → step s = .next t → t.sessionSound)

/-- R140, R18, R150: every step keeps every config item and the lease length in range. -/
def Obligations.StepKeepsItemsInRange : Prop :=
  ∀ s t : State, s.itemsInRange → step s = .next t → t.itemsInRange

/-- R24, R27, R35: in every step the active bank stays well-formed, the staged bank too while a commit is pending, and every record legal. -/
def Obligations.StepKeepsProgramsSound : Prop :=
  ∀ s t : State, s.programsSound → step s = .next t → t.programsSound

/-- R16, R35, R39, R42, R47, R51 and section 1.2 (R1 to R6): in every step the tracker's items agree with its state, every span of the history and
ref lie between SPAN_MIN and SPAN_MAX, at least N spans stand under lock, no acquire timeout is overdue, a program is followed only under lock, a
commit is pending only while one is followed, and the sequencer holds and presents what its state says. -/
def Obligations.StepKeepsCadence : Prop :=
  ∀ s t : State, s.itemsInRange → s.resetHeld → s.followsLock → s.trackerSound → s.sequencerSound → step s = .next t →
    t.followsLock ∧ t.trackerSound ∧ t.sequencerSound

/-- R89: in every step a port that is DOWN neither receives nor transmits. -/
def Obligations.StepKeepsDownPortsQuiet : Prop :=
  ∀ s t : State, s.downPortsQuiet → step s = .next t → t.downPortsQuiet

/-- R117, R118, R119, R129: in every step each record stays in one place and each cell on one list, the counts of every queue stay exact, and each
waiting record names its queue and has the cells of its length. -/
def Obligations.StepKeepsPoolWhole : Prop :=
  ∀ s t : State, s.poolWhole → step s = .next t → t.poolWhole

/-- R95: while RESET_N is low every item stays at its power-on value, whatever happens. -/
def Obligations.StepKeepsResetHeld : Prop :=
  ∀ s t : State, s.resetHeld → step s = .next t → t.resetHeld
end

