-- ==== Sys2Proof/Laws/Bytes.lean ====
section
/-! SUPPORT. Numbers as bytes and back (R182): the lemmas the record, response and status statements rest on. -/

namespace Sys2Proof.Machine

@[simp] theorem bigEndian_length : ∀ n v, (bigEndian n v).length = n := by
  intro n
  induction n with
  | zero => exact fun _ => rfl
  | succ n ih => exact fun v => by simp [bigEndian, ih]

theorem numberOf_acc : ∀ (v : List Byte) (acc : Nat),
    v.foldl (fun acc (b : Byte) => acc * 256 + b.toNat) acc = acc * 256 ^ v.length + numberOf v := by
  intro v
  induction v with
  | nil => intro acc; simp [numberOf]
  | cons b bs ih =>
    intro acc
    simp only [List.foldl_cons, List.length_cons, numberOf, zero_mul, zero_add]
    rw [ih, ih b.toNat]
    ring

theorem numberOf_cons (b : Byte) (l : List Byte) : numberOf (b :: l) = b.toNat * 256 ^ l.length + numberOf l := by
  have h := numberOf_acc l b.toNat
  simpa [numberOf] using h

/-- Bytes spell a number below 256 to their count. -/
theorem numberOf_lt : ∀ l : List Byte, numberOf l < 256 ^ l.length := by
  intro l
  induction l with
  | nil => decide
  | cons b l ih =>
    rw [numberOf_cons, List.length_cons, pow_succ]
    calc b.toNat * 256 ^ l.length + numberOf l < b.toNat * 256 ^ l.length + 256 ^ l.length := by omega
      _ = (b.toNat + 1) * 256 ^ l.length := by ring
      _ ≤ 256 * 256 ^ l.length := Nat.mul_le_mul_right _ b.isLt
      _ = 256 ^ l.length * 256 := Nat.mul_comm _ _

theorem fieldAt_lt (bytes : List Byte) (off n : Nat) : fieldAt bytes off n < 256 ^ n :=
  (numberOf_lt _).trans_le (Nat.pow_le_pow_right (by decide) (by simp))

/-- A number below 256 to the n is read back from its n bytes. -/
theorem numberOf_bigEndian : ∀ n v, v < 256 ^ n → numberOf (bigEndian n v) = v := by
  intro n
  induction n with
  | zero =>
    intro v h
    simp only [pow_zero, Nat.lt_one_iff] at h
    subst h
    rfl
  | succ n ih =>
    intro v h
    have low : ∀ k, k ≤ n → bigEndian k v = bigEndian k (v % 256 ^ n) := by
      intro k
      induction k with
      | zero => exact fun _ => rfl
      | succ k ihk =>
        intro hk
        simp only [bigEndian]
        rw [ihk (by omega)]
        congr 1
        apply BitVec.eq_of_toNat_eq
        simp only [BitVec.toNat_ofNat]
        obtain ⟨d, rfl⟩ : ∃ d, n = k + 1 + d := ⟨n - (k + 1), by omega⟩
        rw [show 256 ^ (k + 1 + d) = 256 ^ k * (256 * 256 ^ d) by ring, Nat.mod_mul_right_div_self,
          Nat.mod_mul_right_mod]
    rw [bigEndian, numberOf_cons, low n le_rfl, ih _ (Nat.mod_lt _ (by positivity))]
    simp only [BitVec.toNat_ofNat, bigEndian_length]
    rw [Nat.mod_eq_of_lt (by rw [Nat.div_lt_iff_lt_mul (by positivity)]; rw [pow_succ] at h; linarith)]
    exact Nat.div_add_mod' v _

@[simp] theorem flagByte_length (b : Bool) : (flagByte b).length = 1 := rfl

@[simp] theorem optionalField_length (n : Nat) (v : Option Nat) : (optionalField n v).length = n + 1 := by
  unfold optionalField
  split <;> simp

@[simp] theorem actionBytes_length (a : Action) : (actionBytes a).length = 3 := rfl

/-- The field whose bytes stand between those before it and those after it. -/
theorem fieldAt_middle (a b c : List Byte) (off n : Nat) (ha : a.length = off) (hb : b.length = n) :
    fieldAt (a ++ (b ++ c)) off n = numberOf b := by
  subst ha hb
  simp [fieldAt]

/-- The bytes of an action are read back as it (R104). -/
theorem actionOf_actionBytes (a : Action) : actionOf (actionBytes a) = some a := by
  obtain ⟨d, c, m⟩ := a
  cases d <;> cases m <;> cases c with
  | fromPriority => rfl
  | fixed k => fin_cases k <;> rfl

/-- The check sequence has four bytes (R85). -/
@[simp] theorem checkSequence_length (b : List Byte) : (checkSequence b).length = 4 := by simp [checkSequence]

/-- A built frame is its content, padding, and a check sequence that passes (R85, R138). -/
theorem closeFrame_passes (content : List Byte) : checkPasses (closeFrame content) = true := by
  unfold checkPasses closeFrame
  simp only
  generalize content ++ List.replicate (Config.frameMin - 4 - content.length) 0 = padded
  simp

theorem closeFrame_length (content : List Byte) : (closeFrame content).length = max 64 (content.length + 4) := by
  simp [closeFrame, Config.frameMin]
  omega

end Sys2Proof.Machine
end

