-- ==== Sys2Proof/Laws/CheckSequence.lean ====
section
/-! SUPPORT. The check sequence (R85): the byte-wise check of Machine/Bytes.lean is the register of `checkRegister`, complemented and with its
bits reversed (log entry 6). -/

namespace Sys2Proof.Machine

/-- The register as a number with its bits reversed: the form in which Machine/Bytes.lean holds it. -/
def mirrored (r : BitVec 32) : Nat := r.reverse.toNat

theorem mirrored_testBit (r : BitVec 32) (i : Nat) : (mirrored r).testBit i = (decide (i < 32) && r.getLsbD (31 - i)) := by
  unfold mirrored
  rw [BitVec.testBit_toNat, BitVec.getLsbD_reverse, BitVec.getMsbD]

theorem mirrored_xor (a b : BitVec 32) : mirrored (a ^^^ b) = mirrored a ^^^ mirrored b := by
  apply Nat.eq_of_testBit_eq
  intro i
  rw [Nat.testBit_xor, mirrored_testBit, mirrored_testBit, mirrored_testBit, BitVec.getLsbD_xor]
  cases decide (i < 32) <;> rfl

theorem mirrored_shiftLeft (r : BitVec 32) : mirrored (r <<< 1) = mirrored r / 2 := by
  apply Nat.eq_of_testBit_eq
  intro i
  rw [mirrored_testBit, Nat.testBit_div_two, mirrored_testBit, BitVec.getLsbD_shiftLeft]
  by_cases h : i < 31
  · simp [show i < 32 by omega, show i + 1 < 32 by omega, show 31 - i - 1 = 31 - (i + 1) by omega,
      show 31 - i < 32 by omega, show ¬(31 - i < 1) by omega]
  · by_cases h2 : i = 31
    · subst h2
      simp
    · simp [show ¬i < 32 by omega, show ¬i + 1 < 32 by omega]

theorem mirrored_checkShift (r : BitVec 32) (bit : Bool) :
    mirrored (checkShift r bit)
      = if decide (mirrored r % 2 = 1) = bit then mirrored r / 2 else (mirrored r / 2) ^^^ 0xEDB88320 := by
  have top : decide (mirrored r % 2 = 1) = r.msb := by
    have h := mirrored_testBit r 0
    rw [Nat.testBit_zero] at h
    rw [h, BitVec.msb_eq_getLsbD_last]
    rfl
  rw [top]
  unfold checkShift
  split
  · exact mirrored_shiftLeft r
  · rw [mirrored_xor, mirrored_shiftLeft, show mirrored 0x04C11DB7#32 = 0xEDB88320 by decide +kernel]

/-- A check step on a register into which the bits to come are already folded. -/
theorem crcBit_xor (r : BitVec 32) (x : Nat) :
    crcBit (mirrored r ^^^ x) = mirrored (checkShift r (x.testBit 0)) ^^^ (x / 2) := by
  rw [mirrored_checkShift, crcBit, Nat.xor_div_two, Nat.testBit_zero]
  have a := Nat.mod_two_eq_zero_or_one (mirrored r)
  have b := Nat.mod_two_eq_zero_or_one x
  have h : (mirrored r ^^^ x) % 2 = (mirrored r % 2 + x % 2) % 2 := by
    have t := Nat.testBit_xor (mirrored r) x 0
    simp only [Nat.testBit_zero] at t
    have c := Nat.mod_two_eq_zero_or_one (mirrored r ^^^ x)
    rcases a with a | a <;> rcases b with b | b <;> rcases c with c | c <;> simp [a, b, c] at t ⊢
  rcases a with a | a <;> rcases b with b | b <;> rw [h, a, b] <;>
    simp [Nat.xor_comm, Nat.xor_left_comm]

theorem crcByte_mirrored (r : BitVec 32) (b : Byte) :
    crcByte (mirrored r) b = mirrored ((List.range 8).foldl (fun r i => checkShift r (b.getLsbD i)) r) := by
  have bits : ∀ i, (b.toNat / 2 ^ i).testBit 0 = b.getLsbD i := fun i => by
    rw [Nat.testBit_div_two_pow, BitVec.testBit_toNat, Nat.zero_add]
  simp only [crcByte, List.range, List.range.loop, List.foldl, crcBit_xor, Nat.div_div_eq_div_mul]
  rw [show b.toNat / (2 * 2 * 2 * 2 * 2 * 2 * 2 * 2) = 0 from Nat.div_eq_of_lt b.isLt, Nat.xor_zero]
  have h0 := bits 0; have h1 := bits 1; have h2 := bits 2; have h3 := bits 3
  have h4 := bits 4; have h5 := bits 5; have h6 := bits 6; have h7 := bits 7
  simp_all

theorem crcBytes_mirrored : ∀ (bytes : List Byte) (r : BitVec 32),
    crcBytes bytes (mirrored r)
      = mirrored (bytes.foldl (fun r b => (List.range 8).foldl (fun r i => checkShift r (b.getLsbD i)) r) r) := by
  intro bytes
  induction bytes with
  | nil => exact fun _ => rfl
  | cons b bs ih =>
    intro r
    rw [crcBytes, show strictly (crcBytes bs) = crcBytes bs from funext fun n => by cases n <;> rfl, crcByte_mirrored, ih]
    rfl

/-- The check of bytes is the complement of the register after them, its bits reversed. -/
theorem crc32_eq_checkRegister (bytes : List Byte) : crc32 bytes = (~~~(checkRegister bytes)).reverse.toNat := by
  have ones : (0xFFFFFFFF : Nat) = mirrored (BitVec.allOnes 32) := by decide +kernel
  rw [crc32, ones, crcBytes_mirrored, ← mirrored_xor, BitVec.xor_allOnes]
  rfl

end Sys2Proof.Machine
end

