-- ==== Sys2Proof/Laws/State.lean ====
section
/-! SUPPORT. What each named update of State leaves in each field, by rfl. A theorem with several parts is one update; each part is one field. -/

namespace Sys2Proof.Machine

/-! ### Pairs -/

@[simp] theorem Pair.get_set_same {α : Type} (x : Pair α) (p : Port) (v : α) : (x.set p v).get p = v := by
  cases p <;> rfl

theorem Pair.get_set_other {α : Type} (x : Pair α) (p r : Port) (v : α) (h : r ≠ p) : (x.set p v).get r = x.get r := by
  cases p <;> cases r <;> first | rfl | exact absurd rfl h

theorem Pair.get_set {α : Type} (x : Pair α) (p r : Port) (v : α) :
    (x.set p v).get r = if r = p then v else x.get r := by
  cases p <;> cases r <;> rfl

@[simp] theorem Pair.set_get {α : Type} (x : Pair α) (p : Port) : x.set p (x.get p) = x := by
  cases p <;> rfl

@[simp] theorem Pair.set_set {α : Type} (x : Pair α) (p : Port) (v w : α) : (x.set p v).set p w = x.set p w := by
  cases p <;> rfl

theorem Pair.get_modify {α : Type} (x : Pair α) (p r : Port) (f : α → α) :
    (x.modify p f).get r = if r = p then f (x.get r) else x.get r := by
  cases p <;> cases r <;> rfl

@[simp] theorem Pair.get_a {α : Type} (x : Pair α) : x.get .a = x.a := rfl

@[simp] theorem Pair.get_b {α : Type} (x : Pair α) : x.get .b = x.b := rfl

@[ext] theorem Pair.ext_get {α : Type} (x y : Pair α) (h : ∀ p, x.get p = y.get p) : x = y := by
  have ha := h .a
  have hb := h .b
  cases x
  cases y
  simp only [Pair.get] at ha hb
  rw [ha, hb]

/-! ### Updates of one field -/

@[simp] theorem State.setPort_fields (s : State) (p : Port) (v : LinePort) :
    (s.setPort p v).time = s.time ∧ (s.setPort p v).pins = s.pins ∧ (s.setPort p v).straps = s.straps
      ∧ (s.setPort p v).ports = s.ports.set p v ∧ (s.setPort p v).egress = s.egress ∧ (s.setPort p v).pool = s.pool
      ∧ (s.setPort p v).classifier = s.classifier ∧ (s.setPort p v).tracker = s.tracker
      ∧ (s.setPort p v).sequencer = s.sequencer ∧ (s.setPort p v).programs = s.programs
      ∧ (s.setPort p v).agent = s.agent ∧ (s.setPort p v).config = s.config ∧ (s.setPort p v).counters = s.counters
      ∧ (s.setPort p v).notices = s.notices ∧ (s.setPort p v).tieCount = s.tieCount ∧ (s.setPort p v).handed = s.handed
      ∧ (s.setPort p v).pending = s.pending :=
  ⟨rfl, rfl, rfl, rfl, rfl, rfl, rfl, rfl, rfl, rfl, rfl, rfl, rfl, rfl, rfl, rfl, rfl⟩

@[simp] theorem State.setSched_fields (s : State) (p : Port) (e : Egress) :
    (s.setSched p e).time = s.time ∧ (s.setSched p e).pins = s.pins ∧ (s.setSched p e).straps = s.straps
      ∧ (s.setSched p e).ports = s.ports ∧ (s.setSched p e).egress = s.egress.set p e ∧ (s.setSched p e).pool = s.pool
      ∧ (s.setSched p e).classifier = s.classifier ∧ (s.setSched p e).tracker = s.tracker
      ∧ (s.setSched p e).sequencer = s.sequencer ∧ (s.setSched p e).programs = s.programs ∧ (s.setSched p e).agent = s.agent
      ∧ (s.setSched p e).config = s.config ∧ (s.setSched p e).counters = s.counters ∧ (s.setSched p e).notices = s.notices
      ∧ (s.setSched p e).tieCount = s.tieCount ∧ (s.setSched p e).handed = s.handed ∧ (s.setSched p e).pending = s.pending :=
  ⟨rfl, rfl, rfl, rfl, rfl, rfl, rfl, rfl, rfl, rfl, rfl, rfl, rfl, rfl, rfl, rfl, rfl⟩

@[simp] theorem State.setQueue_fields (s : State) (p : Port) (q : QueueName) (v : Queue) :
    (s.setQueue p q v).time = s.time ∧ (s.setQueue p q v).pins = s.pins ∧ (s.setQueue p q v).straps = s.straps
      ∧ (s.setQueue p q v).ports = s.ports
      ∧ (s.setQueue p q v).egress = s.egress.set p { s.sched p with queues := (s.sched p).queues.set q v }
      ∧ (s.setQueue p q v).pool = s.pool ∧ (s.setQueue p q v).classifier = s.classifier ∧ (s.setQueue p q v).tracker = s.tracker
      ∧ (s.setQueue p q v).sequencer = s.sequencer ∧ (s.setQueue p q v).programs = s.programs ∧ (s.setQueue p q v).agent = s.agent
      ∧ (s.setQueue p q v).config = s.config ∧ (s.setQueue p q v).counters = s.counters ∧ (s.setQueue p q v).notices = s.notices
      ∧ (s.setQueue p q v).tieCount = s.tieCount
      ∧ (s.setQueue p q v).handed = s.handed ∧ (s.setQueue p q v).pending = s.pending :=
  ⟨rfl, rfl, rfl, rfl, rfl, rfl, rfl, rfl, rfl, rfl, rfl, rfl, rfl, rfl, rfl, rfl, rfl⟩

@[simp] theorem State.setInFlight_fields (s : State) (p : Port) (f : Option InFlight) :
    (s.setInFlight p f).time = s.time ∧ (s.setInFlight p f).pins = s.pins ∧ (s.setInFlight p f).straps = s.straps
      ∧ (s.setInFlight p f).ports = s.ports ∧ (s.setInFlight p f).egress = s.egress.set p { s.sched p with inFlight := f }
      ∧ (s.setInFlight p f).pool = s.pool ∧ (s.setInFlight p f).classifier = s.classifier
      ∧ (s.setInFlight p f).tracker = s.tracker ∧ (s.setInFlight p f).sequencer = s.sequencer
      ∧ (s.setInFlight p f).programs = s.programs ∧ (s.setInFlight p f).agent = s.agent ∧ (s.setInFlight p f).config = s.config
      ∧ (s.setInFlight p f).counters = s.counters ∧ (s.setInFlight p f).notices = s.notices
      ∧ (s.setInFlight p f).tieCount = s.tieCount
      ∧ (s.setInFlight p f).handed = s.handed ∧ (s.setInFlight p f).pending = s.pending :=
  ⟨rfl, rfl, rfl, rfl, rfl, rfl, rfl, rfl, rfl, rfl, rfl, rfl, rfl, rfl, rfl, rfl, rfl⟩

@[simp] theorem State.setRecord_fields (s : State) (h : Handle) (r : FrameRecord) :
    (s.setRecord h r).time = s.time ∧ (s.setRecord h r).pins = s.pins ∧ (s.setRecord h r).straps = s.straps
      ∧ (s.setRecord h r).ports = s.ports ∧ (s.setRecord h r).egress = s.egress
      ∧ (s.setRecord h r).pool = { s.pool with records := s.pool.records.set h r } ∧ (s.setRecord h r).classifier = s.classifier
      ∧ (s.setRecord h r).tracker = s.tracker ∧ (s.setRecord h r).sequencer = s.sequencer
      ∧ (s.setRecord h r).programs = s.programs ∧ (s.setRecord h r).agent = s.agent ∧ (s.setRecord h r).config = s.config
      ∧ (s.setRecord h r).counters = s.counters ∧ (s.setRecord h r).notices = s.notices ∧ (s.setRecord h r).tieCount = s.tieCount
      ∧ (s.setRecord h r).handed = s.handed
      ∧ (s.setRecord h r).pending = s.pending :=
  ⟨rfl, rfl, rfl, rfl, rfl, rfl, rfl, rfl, rfl, rfl, rfl, rfl, rfl, rfl, rfl, rfl, rfl⟩

@[simp] theorem State.setTracker_fields (s : State) (t : Tracker) :
    (s.setTracker t).time = s.time ∧ (s.setTracker t).pins = s.pins ∧ (s.setTracker t).straps = s.straps
      ∧ (s.setTracker t).ports = s.ports ∧ (s.setTracker t).egress = s.egress ∧ (s.setTracker t).pool = s.pool
      ∧ (s.setTracker t).classifier = s.classifier ∧ (s.setTracker t).tracker = t ∧ (s.setTracker t).sequencer = s.sequencer
      ∧ (s.setTracker t).programs = s.programs ∧ (s.setTracker t).agent = s.agent ∧ (s.setTracker t).config = s.config
      ∧ (s.setTracker t).counters = s.counters ∧ (s.setTracker t).notices = s.notices ∧ (s.setTracker t).tieCount = s.tieCount
      ∧ (s.setTracker t).handed = s.handed
      ∧ (s.setTracker t).pending = s.pending :=
  ⟨rfl, rfl, rfl, rfl, rfl, rfl, rfl, rfl, rfl, rfl, rfl, rfl, rfl, rfl, rfl, rfl, rfl⟩

@[simp] theorem State.setLock_fields (s : State) (b : Bool) :
    (s.setLock b).time = s.time ∧ (s.setLock b).pins = { s.pins with lock := b } ∧ (s.setLock b).straps = s.straps
      ∧ (s.setLock b).ports = s.ports ∧ (s.setLock b).egress = s.egress ∧ (s.setLock b).pool = s.pool
      ∧ (s.setLock b).classifier = s.classifier ∧ (s.setLock b).tracker = s.tracker ∧ (s.setLock b).sequencer = s.sequencer
      ∧ (s.setLock b).programs = s.programs ∧ (s.setLock b).agent = s.agent ∧ (s.setLock b).config = s.config
      ∧ (s.setLock b).counters = s.counters ∧ (s.setLock b).notices = s.notices ∧ (s.setLock b).tieCount = s.tieCount
      ∧ (s.setLock b).handed = s.handed
      ∧ (s.setLock b).pending = s.pending :=
  ⟨rfl, rfl, rfl, rfl, rfl, rfl, rfl, rfl, rfl, rfl, rfl, rfl, rfl, rfl, rfl, rfl, rfl⟩

@[simp] theorem State.setPhy_fields (s : State) (p : Port) (l : Link) :
    (s.setPhy p l).time = s.time ∧ (s.setPhy p l).pins = { s.pins with phy := s.pins.phy.set p l }
      ∧ (s.setPhy p l).straps = s.straps ∧ (s.setPhy p l).ports = s.ports ∧ (s.setPhy p l).egress = s.egress
      ∧ (s.setPhy p l).pool = s.pool ∧ (s.setPhy p l).classifier = s.classifier ∧ (s.setPhy p l).tracker = s.tracker
      ∧ (s.setPhy p l).sequencer = s.sequencer ∧ (s.setPhy p l).programs = s.programs ∧ (s.setPhy p l).agent = s.agent
      ∧ (s.setPhy p l).config = s.config ∧ (s.setPhy p l).counters = s.counters ∧ (s.setPhy p l).notices = s.notices
      ∧ (s.setPhy p l).tieCount = s.tieCount ∧ (s.setPhy p l).handed = s.handed ∧ (s.setPhy p l).pending = s.pending :=
  ⟨rfl, rfl, rfl, rfl, rfl, rfl, rfl, rfl, rfl, rfl, rfl, rfl, rfl, rfl, rfl, rfl, rfl⟩

@[simp] theorem State.setLink_fields (s : State) (p : Port) (l : Link) :
    (s.setLink p l).time = s.time ∧ (s.setLink p l).pins = s.pins ∧ (s.setLink p l).straps = s.straps
      ∧ (s.setLink p l).ports = s.ports.set p { s.port p with link := l } ∧ (s.setLink p l).egress = s.egress
      ∧ (s.setLink p l).pool = s.pool ∧ (s.setLink p l).classifier = s.classifier ∧ (s.setLink p l).tracker = s.tracker
      ∧ (s.setLink p l).sequencer = s.sequencer ∧ (s.setLink p l).programs = s.programs ∧ (s.setLink p l).agent = s.agent
      ∧ (s.setLink p l).config = s.config ∧ (s.setLink p l).counters = s.counters ∧ (s.setLink p l).notices = s.notices
      ∧ (s.setLink p l).tieCount = s.tieCount ∧ (s.setLink p l).handed = s.handed ∧ (s.setLink p l).pending = s.pending :=
  ⟨rfl, rfl, rfl, rfl, rfl, rfl, rfl, rfl, rfl, rfl, rfl, rfl, rfl, rfl, rfl, rfl, rfl⟩

@[simp] theorem State.setConfig_fields (s : State) (c : ConfigItems) :
    (s.setConfig c).time = s.time ∧ (s.setConfig c).pins = s.pins ∧ (s.setConfig c).straps = s.straps
      ∧ (s.setConfig c).ports = s.ports ∧ (s.setConfig c).egress = s.egress ∧ (s.setConfig c).pool = s.pool
      ∧ (s.setConfig c).classifier = s.classifier ∧ (s.setConfig c).tracker = s.tracker ∧ (s.setConfig c).sequencer = s.sequencer
      ∧ (s.setConfig c).programs = s.programs ∧ (s.setConfig c).agent = s.agent ∧ (s.setConfig c).config = c
      ∧ (s.setConfig c).counters = s.counters ∧ (s.setConfig c).notices = s.notices ∧ (s.setConfig c).tieCount = s.tieCount
      ∧ (s.setConfig c).handed = s.handed
      ∧ (s.setConfig c).pending = s.pending :=
  ⟨rfl, rfl, rfl, rfl, rfl, rfl, rfl, rfl, rfl, rfl, rfl, rfl, rfl, rfl, rfl, rfl, rfl⟩

@[simp] theorem State.setSession_fields (s : State) (v : Session) :
    (s.setSession v).time = s.time ∧ (s.setSession v).pins = s.pins ∧ (s.setSession v).straps = s.straps
      ∧ (s.setSession v).ports = s.ports ∧ (s.setSession v).egress = s.egress ∧ (s.setSession v).pool = s.pool
      ∧ (s.setSession v).classifier = s.classifier ∧ (s.setSession v).tracker = s.tracker
      ∧ (s.setSession v).sequencer = s.sequencer ∧ (s.setSession v).programs = s.programs
      ∧ (s.setSession v).agent = { s.agent with session := v } ∧ (s.setSession v).config = s.config
      ∧ (s.setSession v).counters = s.counters ∧ (s.setSession v).notices = s.notices ∧ (s.setSession v).tieCount = s.tieCount
      ∧ (s.setSession v).handed = s.handed
      ∧ (s.setSession v).pending = s.pending :=
  ⟨rfl, rfl, rfl, rfl, rfl, rfl, rfl, rfl, rfl, rfl, rfl, rfl, rfl, rfl, rfl, rfl, rfl⟩

@[simp] theorem State.countPort_fields (s : State) (p : Port) (f : PortCounters → PortCounters) :
    (s.countPort p f).time = s.time ∧ (s.countPort p f).pins = s.pins ∧ (s.countPort p f).straps = s.straps
      ∧ (s.countPort p f).ports = s.ports ∧ (s.countPort p f).egress = s.egress ∧ (s.countPort p f).pool = s.pool
      ∧ (s.countPort p f).classifier = s.classifier ∧ (s.countPort p f).tracker = s.tracker
      ∧ (s.countPort p f).sequencer = s.sequencer ∧ (s.countPort p f).programs = s.programs ∧ (s.countPort p f).agent = s.agent
      ∧ (s.countPort p f).config = s.config
      ∧ (s.countPort p f).counters = { s.counters with ports := s.counters.ports.modify p f }
      ∧ (s.countPort p f).notices = s.notices ∧ (s.countPort p f).tieCount = s.tieCount
      ∧ (s.countPort p f).handed = s.handed ∧ (s.countPort p f).pending = s.pending :=
  ⟨rfl, rfl, rfl, rfl, rfl, rfl, rfl, rfl, rfl, rfl, rfl, rfl, rfl, rfl, rfl, rfl, rfl⟩

@[simp] theorem State.countQueue_fields (s : State) (p : Port) (q : QueueName) (f : QueueCounters → QueueCounters) :
    (s.countQueue p q f).time = s.time ∧ (s.countQueue p q f).pins = s.pins ∧ (s.countQueue p q f).straps = s.straps
      ∧ (s.countQueue p q f).ports = s.ports ∧ (s.countQueue p q f).egress = s.egress ∧ (s.countQueue p q f).pool = s.pool
      ∧ (s.countQueue p q f).classifier = s.classifier ∧ (s.countQueue p q f).tracker = s.tracker
      ∧ (s.countQueue p q f).sequencer = s.sequencer ∧ (s.countQueue p q f).programs = s.programs
      ∧ (s.countQueue p q f).agent = s.agent ∧ (s.countQueue p q f).config = s.config
      ∧ (s.countQueue p q f).counters = { s.counters with queues := s.counters.queues.modify p (fun v => v.set q (f v[q])) }
      ∧ (s.countQueue p q f).notices = s.notices ∧ (s.countQueue p q f).tieCount = s.tieCount
      ∧ (s.countQueue p q f).handed = s.handed
      ∧ (s.countQueue p q f).pending = s.pending :=
  ⟨rfl, rfl, rfl, rfl, rfl, rfl, rfl, rfl, rfl, rfl, rfl, rfl, rfl, rfl, rfl, rfl, rfl⟩

@[simp] theorem State.countTracker_fields (s : State) (f : TrackerCounters → TrackerCounters) :
    (s.countTracker f).time = s.time ∧ (s.countTracker f).pins = s.pins ∧ (s.countTracker f).straps = s.straps
      ∧ (s.countTracker f).ports = s.ports ∧ (s.countTracker f).egress = s.egress ∧ (s.countTracker f).pool = s.pool
      ∧ (s.countTracker f).classifier = s.classifier ∧ (s.countTracker f).tracker = s.tracker
      ∧ (s.countTracker f).sequencer = s.sequencer ∧ (s.countTracker f).programs = s.programs ∧ (s.countTracker f).agent = s.agent
      ∧ (s.countTracker f).config = s.config ∧ (s.countTracker f).counters = { s.counters with tracker := f s.counters.tracker }
      ∧ (s.countTracker f).notices = s.notices ∧ (s.countTracker f).tieCount = s.tieCount
      ∧ (s.countTracker f).handed = s.handed ∧ (s.countTracker f).pending = s.pending :=
  ⟨rfl, rfl, rfl, rfl, rfl, rfl, rfl, rfl, rfl, rfl, rfl, rfl, rfl, rfl, rfl, rfl, rfl⟩

@[simp] theorem State.countSequencer_fields (s : State) (f : SequencerCounters → SequencerCounters) :
    (s.countSequencer f).time = s.time ∧ (s.countSequencer f).pins = s.pins ∧ (s.countSequencer f).straps = s.straps
      ∧ (s.countSequencer f).ports = s.ports ∧ (s.countSequencer f).egress = s.egress ∧ (s.countSequencer f).pool = s.pool
      ∧ (s.countSequencer f).classifier = s.classifier ∧ (s.countSequencer f).tracker = s.tracker
      ∧ (s.countSequencer f).sequencer = s.sequencer ∧ (s.countSequencer f).programs = s.programs
      ∧ (s.countSequencer f).agent = s.agent ∧ (s.countSequencer f).config = s.config
      ∧ (s.countSequencer f).counters = { s.counters with sequencer := f s.counters.sequencer }
      ∧ (s.countSequencer f).notices = s.notices ∧ (s.countSequencer f).tieCount = s.tieCount
      ∧ (s.countSequencer f).handed = s.handed
      ∧ (s.countSequencer f).pending = s.pending :=
  ⟨rfl, rfl, rfl, rfl, rfl, rfl, rfl, rfl, rfl, rfl, rfl, rfl, rfl, rfl, rfl, rfl, rfl⟩

@[simp] theorem State.countAgent_fields (s : State) (f : AgentCounters → AgentCounters) :
    (s.countAgent f).time = s.time ∧ (s.countAgent f).pins = s.pins ∧ (s.countAgent f).straps = s.straps
      ∧ (s.countAgent f).ports = s.ports ∧ (s.countAgent f).egress = s.egress ∧ (s.countAgent f).pool = s.pool
      ∧ (s.countAgent f).classifier = s.classifier ∧ (s.countAgent f).tracker = s.tracker
      ∧ (s.countAgent f).sequencer = s.sequencer ∧ (s.countAgent f).programs = s.programs ∧ (s.countAgent f).agent = s.agent
      ∧ (s.countAgent f).config = s.config ∧ (s.countAgent f).counters = { s.counters with agent := f s.counters.agent }
      ∧ (s.countAgent f).notices = s.notices ∧ (s.countAgent f).tieCount = s.tieCount
      ∧ (s.countAgent f).handed = s.handed ∧ (s.countAgent f).pending = s.pending :=
  ⟨rfl, rfl, rfl, rfl, rfl, rfl, rfl, rfl, rfl, rfl, rfl, rfl, rfl, rfl, rfl, rfl, rfl⟩

@[simp] theorem freeRecord_fields (s : State) (h : Handle) :
    (freeRecord h s).time = s.time ∧ (freeRecord h s).pins = s.pins ∧ (freeRecord h s).straps = s.straps
      ∧ (freeRecord h s).ports = s.ports ∧ (freeRecord h s).egress = s.egress
      ∧ (freeRecord h s).pool = { s.pool with
        freeCells := s.pool.freeCells ++ (s.record h).cells
        freeRecords := s.pool.freeRecords ++ [h]
        records := s.pool.records.set h FrameRecord.blank }
      ∧ (freeRecord h s).classifier = s.classifier ∧ (freeRecord h s).tracker = s.tracker
      ∧ (freeRecord h s).sequencer = s.sequencer ∧ (freeRecord h s).programs = s.programs ∧ (freeRecord h s).agent = s.agent
      ∧ (freeRecord h s).config = s.config ∧ (freeRecord h s).counters = s.counters ∧ (freeRecord h s).notices = s.notices
      ∧ (freeRecord h s).tieCount = s.tieCount ∧ (freeRecord h s).handed = s.handed ∧ (freeRecord h s).pending = s.pending :=
  ⟨rfl, rfl, rfl, rfl, rfl, rfl, rfl, rfl, rfl, rfl, rfl, rfl, rfl, rfl, rfl, rfl, rfl⟩

/-! ### Accessors after updates -/

theorem State.port_setPort (s : State) (p r : Port) (v : LinePort) :
    (s.setPort p v).port r = if r = p then v else s.port r := by
  cases p <;> cases r <;> rfl

theorem State.sched_setSched (s : State) (p r : Port) (e : Egress) :
    (s.setSched p e).sched r = if r = p then e else s.sched r := by
  cases p <;> cases r <;> rfl

theorem State.sched_setInFlight (s : State) (p r : Port) (f : Option InFlight) :
    (s.setInFlight p f).sched r = if r = p then { s.sched r with inFlight := f } else s.sched r := by
  cases p <;> cases r <;> rfl

theorem State.sched_setQueue (s : State) (p r : Port) (q : QueueName) (v : Queue) :
    (s.setQueue p q v).sched r
      = if r = p then { s.sched r with queues := (s.sched r).queues.set q v } else s.sched r := by
  cases p <;> cases r <;> rfl

/-- The queue read back after a write of a queue. -/
theorem State.queue_setQueue (s : State) (p r : Port) (q u : QueueName) (v : Queue) :
    (s.setQueue p q v).queue r u = if r = p ∧ u = q then v else s.queue r u := by
  by_cases hr : r = p
  · subst hr
    by_cases hu : u = q
    · subst hu
      simp [State.queue, State.sched_setQueue]
    · have : (q : Nat) ≠ (u : Nat) := fun h => hu (Fin.ext h.symm)
      simp [State.queue, State.sched_setQueue, hu, this]
  · simp [State.queue, State.sched_setQueue, hr]

@[simp] theorem State.queue_setInFlight (s : State) (p r : Port) (u : QueueName) (f : Option InFlight) :
    (s.setInFlight p f).queue r u = s.queue r u := by
  cases p <;> cases r <;> rfl

/-- The record read back after a write of a record. -/
theorem State.record_setRecord (s : State) (h k : Handle) (r : FrameRecord) :
    (s.setRecord h r).record k = if k = h then r else s.record k := by
  by_cases hk : k = h
  · subst hk
    simp [State.record]
  · have : (h : Nat) ≠ (k : Nat) := fun e => hk (Fin.ext e.symm)
    simp [State.record, hk, this]

/-- The record read back after a record is freed. -/
theorem record_freeRecord (s : State) (h k : Handle) :
    (freeRecord h s).record k = if k = h then FrameRecord.blank else s.record k := by
  by_cases hk : k = h
  · subst hk
    simp [State.record]
  · have : (h : Nat) ≠ (k : Nat) := fun e => hk (Fin.ext e.symm)
    simp [State.record, hk, this]

end Sys2Proof.Machine
end

