-- ==== Sys2Proof/Laws/Traffic.lean ====
section
/-! SUPPORT. The shared operations of the pool, the schedulers and admission: what each can do, once, for the proofs that cite it. -/

namespace Sys2Proof.Machine

/-! ### What traffic leaves alone -/

theorem State.sameButTraffic.refl (s : State) : s.sameButTraffic s := rfl

theorem State.sameButTraffic.trans {s t u : State} (h : s.sameButTraffic t) (k : t.sameButTraffic u) :
    s.sameButTraffic u := by
  unfold State.sameButTraffic at *
  rw [k, h]

/-- The fields that traffic leaves alone. -/
theorem State.sameButTraffic.fields {s t : State} (h : s.sameButTraffic t) :
    t.time = s.time ∧ t.pins = s.pins ∧ t.straps = s.straps ∧ t.ports = s.ports ∧ t.classifier = s.classifier
      ∧ t.tracker = s.tracker ∧ t.sequencer = s.sequencer ∧ t.programs = s.programs ∧ t.agent = s.agent
      ∧ t.config = s.config ∧ t.notices = s.notices ∧ t.tieCount = s.tieCount
      ∧ t.handed = s.handed ∧ t.pending = s.pending := by
  rw [h]
  exact ⟨rfl, rfl, rfl, rfl, rfl, rfl, rfl, rfl, rfl, rfl, rfl, rfl, rfl, rfl⟩

/-! ### Traffic as a sequence of primitive moves -/

/-- A property that every primitive move of traffic keeps: a head is passed over, a head starts, a frame is stored, a
refusal or a count of the agent group is made. -/
structure TrafficKeeps (P : State → Prop) : Prop where
  hold : ∀ s p h, P s → P (holdHead p h s)
  start : ∀ s p q h rest, (s.sched p).inFlight = none → (s.port p).link = .up → (s.queue p q).records = h :: rest →
    P s → P (startHead p q h rest s)
  store : ∀ s p q bytes h rest, s.pool.freeRecords = h :: rest →
    cellsNeeded bytes.length ≤ s.pool.freeCells.length → P s → P (storeAdmitted p q bytes h rest s)
  drop : ∀ s p q r, P s → P (Machine.countDrop p q r s)
  agent : ∀ s f, P s → P (s.countAgent f)

@[simp] theorem holdHead_sched (p r : Port) (h : Handle) (s : State) : (holdHead p h s).sched r = s.sched r := by
  unfold holdHead
  split <;> rfl

@[simp] theorem holdHead_port (p r : Port) (h : Handle) (s : State) : (holdHead p h s).port r = s.port r := by
  unfold holdHead
  split <;> rfl

theorem TrafficKeeps.considerQueues {P : State → Prop} (k : TrafficKeeps P) (p : Port) :
    ∀ (qs : List QueueName) (s : State), (s.sched p).inFlight = none → (s.port p).link = .up → P s →
      P (Machine.considerQueues p qs s) := by
  intro qs
  induction qs with
  | nil => intro s _ _ h; exact h
  | cons q qs ih =>
    intro s hf hl h
    unfold Machine.considerQueues
    split
    · split
      · exact ih s hf hl h
      · rename_i hd rest heq
        split
        · exact k.start s p q hd rest hf hl heq h
        · exact ih _ (by simpa using hf) (by simpa using hl) (k.hold s p hd h)
    · exact ih s hf hl h

theorem TrafficKeeps.evaluate {P : State → Prop} (k : TrafficKeeps P) (p : Port) (s : State) (h : P s) :
    P (Machine.evaluate p s) := by
  unfold Machine.evaluate
  split
  · rename_i hc
    simp only [Bool.and_eq_true, Option.isNone_iff_eq_none, beq_iff_eq] at hc
    exact k.considerQueues p _ s hc.1 hc.2 h
  · exact h

/-- An admission that no condition refuses has a free record and enough free cells (R121). -/
theorem admissionVerdict_none {p : Port} {q : QueueName} {n : Nat} {s : State} (h : admissionVerdict p q n s = none) :
    (∃ r rest, s.pool.freeRecords = r :: rest) ∧ cellsNeeded n ≤ s.pool.freeCells.length
      ∧ (s.queue p q).cells + cellsNeeded n ≤ s.quota p q := by
  unfold admissionVerdict at h
  split at h
  · cases h
  · rename_i h1
    split at h
    · cases h
    · rename_i h2
      split at h
      · cases h
      · rename_i h3
        refine ⟨?_, by omega, by omega⟩
        cases hr : s.pool.freeRecords with
        | nil => simp [hr] at h1
        | cons r rest => exact ⟨r, rest, rfl⟩

theorem TrafficKeeps.acceptFrame {P : State → Prop} (k : TrafficKeeps P) (p : Port) (q : QueueName) (bytes : List Byte)
    (s : State) (v : admissionVerdict p q bytes.length s = none) (h : P s) : P (Machine.acceptFrame p q bytes s) := by
  obtain ⟨⟨r, rest, hr⟩, hc, _⟩ := admissionVerdict_none v
  unfold Machine.acceptFrame
  rw [hr]
  simp only
  split
  · exact k.evaluate p _ (k.store s p q bytes r rest hr hc h)
  · exact k.store s p q bytes r rest hr hc h

theorem TrafficKeeps.offerForwarded {P : State → Prop} (k : TrafficKeeps P) (p : Port) (q : QueueName)
    (bytes : List Byte) (s : State) (h : P s) : P (Machine.offerForwarded p q bytes s) := by
  unfold Machine.offerForwarded
  split
  · rename_i v
    exact k.acceptFrame p q bytes s v h
  · exact k.drop s p q _ h

theorem TrafficKeeps.offerResponse {P : State → Prop} (k : TrafficKeeps P) (p : Port) (bytes : List Byte) (s : State)
    (h : P s) : P (Machine.offerResponse p bytes s) := by
  unfold Machine.offerResponse
  split
  · rename_i v
    exact k.acceptFrame p queueM bytes s v h
  · exact k.agent _ _ (k.drop s p queueM _ h)

/-- Traffic leaves the other fields alone. -/
theorem trafficKeeps_same (s : State) : TrafficKeeps s.sameButTraffic where
  hold _ _ _ ht := ht.trans (by unfold holdHead; split <;> rfl)
  start _ _ _ _ _ _ _ _ ht := ht.trans rfl
  store _ _ _ _ _ _ _ _ ht := ht.trans rfl
  drop _ _ _ _ ht := ht.trans rfl
  agent _ _ ht := ht.trans rfl

theorem evaluate_same (p : Port) (s : State) : s.sameButTraffic (evaluate p s) :=
  (trafficKeeps_same s).evaluate p s (.refl s)

theorem acceptFrame_same (p : Port) (q : QueueName) (bytes : List Byte) (s : State) :
    s.sameButTraffic (acceptFrame p q bytes s) := by
  unfold acceptFrame
  split
  · exact .refl s
  · simp only
    split
    · exact State.sameButTraffic.trans (t := storeAdmitted p q bytes _ _ s) rfl (evaluate_same p _)
    · rfl

theorem offerForwarded_same (p : Port) (q : QueueName) (bytes : List Byte) (s : State) :
    s.sameButTraffic (offerForwarded p q bytes s) := (trafficKeeps_same s).offerForwarded p q bytes s (.refl s)

theorem offerResponse_same (p : Port) (bytes : List Byte) (s : State) :
    s.sameButTraffic (offerResponse p bytes s) := (trafficKeeps_same s).offerResponse p bytes s (.refl s)

@[simp] theorem evaluate_fields (p : Port) (s : State) :
    (evaluate p s).time = s.time ∧ (evaluate p s).pins = s.pins ∧ (evaluate p s).straps = s.straps
      ∧ (evaluate p s).ports = s.ports ∧ (evaluate p s).classifier = s.classifier ∧ (evaluate p s).tracker = s.tracker
      ∧ (evaluate p s).sequencer = s.sequencer ∧ (evaluate p s).programs = s.programs ∧ (evaluate p s).agent = s.agent
      ∧ (evaluate p s).config = s.config ∧ (evaluate p s).notices = s.notices
      ∧ (evaluate p s).tieCount = s.tieCount
      ∧ (evaluate p s).handed = s.handed ∧ (evaluate p s).pending = s.pending := (evaluate_same p s).fields

@[simp] theorem acceptFrame_fields (p : Port) (q : QueueName) (b : List Byte) (s : State) :
    (acceptFrame p q b s).time = s.time ∧ (acceptFrame p q b s).pins = s.pins ∧ (acceptFrame p q b s).straps = s.straps
      ∧ (acceptFrame p q b s).ports = s.ports ∧ (acceptFrame p q b s).classifier = s.classifier
      ∧ (acceptFrame p q b s).tracker = s.tracker ∧ (acceptFrame p q b s).sequencer = s.sequencer
      ∧ (acceptFrame p q b s).programs = s.programs ∧ (acceptFrame p q b s).agent = s.agent
      ∧ (acceptFrame p q b s).config = s.config ∧ (acceptFrame p q b s).notices = s.notices
      ∧ (acceptFrame p q b s).tieCount = s.tieCount
      ∧ (acceptFrame p q b s).handed = s.handed ∧ (acceptFrame p q b s).pending = s.pending :=
  (acceptFrame_same p q b s).fields

@[simp] theorem offerForwarded_fields (p : Port) (q : QueueName) (b : List Byte) (s : State) :
    (offerForwarded p q b s).time = s.time ∧ (offerForwarded p q b s).pins = s.pins
      ∧ (offerForwarded p q b s).straps = s.straps ∧ (offerForwarded p q b s).ports = s.ports
      ∧ (offerForwarded p q b s).classifier = s.classifier ∧ (offerForwarded p q b s).tracker = s.tracker
      ∧ (offerForwarded p q b s).sequencer = s.sequencer ∧ (offerForwarded p q b s).programs = s.programs
      ∧ (offerForwarded p q b s).agent = s.agent ∧ (offerForwarded p q b s).config = s.config
      ∧ (offerForwarded p q b s).notices = s.notices ∧ (offerForwarded p q b s).tieCount = s.tieCount
      ∧ (offerForwarded p q b s).handed = s.handed
      ∧ (offerForwarded p q b s).pending = s.pending := (offerForwarded_same p q b s).fields

@[simp] theorem offerResponse_fields (p : Port) (b : List Byte) (s : State) :
    (offerResponse p b s).time = s.time ∧ (offerResponse p b s).pins = s.pins ∧ (offerResponse p b s).straps = s.straps
      ∧ (offerResponse p b s).ports = s.ports ∧ (offerResponse p b s).classifier = s.classifier
      ∧ (offerResponse p b s).tracker = s.tracker ∧ (offerResponse p b s).sequencer = s.sequencer
      ∧ (offerResponse p b s).programs = s.programs ∧ (offerResponse p b s).agent = s.agent
      ∧ (offerResponse p b s).config = s.config ∧ (offerResponse p b s).notices = s.notices
      ∧ (offerResponse p b s).tieCount = s.tieCount
      ∧ (offerResponse p b s).handed = s.handed ∧ (offerResponse p b s).pending = s.pending :=
  (offerResponse_same p b s).fields

/-! ### Flushes -/

/-- A property that freeing a record in flight and flushing a queue keep. -/
structure FlushKeeps (P : State → Prop) : Prop where
  abort : ∀ s p f, (s.sched p).inFlight = some f → P s → P ((freeRecord f.record s).setInFlight p none)
  queue : ∀ s p q, P s → P (flushQueue p q s)

theorem FlushKeeps.abortTransmission {P : State → Prop} (k : FlushKeeps P) (p : Port) (s : State) (h : P s) :
    P (Machine.abortTransmission p s) := by
  unfold Machine.abortTransmission
  split
  · rename_i f hf
    exact k.abort s p f hf h
  · exact h

theorem FlushKeeps.flushPort {P : State → Prop} (k : FlushKeeps P) (p : Port) (s : State) (h : P s) :
    P (Machine.flushPort p s) := by
  unfold Machine.flushPort
  generalize priorityOrder = qs
  induction qs generalizing s with
  | nil => exact h
  | cons q qs ih => exact ih _ (k.queue s p q h)

theorem flushRecords_same (p : Port) (q : QueueName) :
    ∀ (hs : List Handle) (s : State), s.sameButTraffic (flushRecords p q hs s) := by
  intro hs
  induction hs with
  | nil => exact fun s => .refl s
  | cons h hs ih =>
    intro s
    exact State.sameButTraffic.trans
      (t := (freeRecord h s).countQueue p q (fun c => { c with flushed := Count.up c.flushed })) rfl (ih _)

theorem flushKeeps_same (s : State) : FlushKeeps s.sameButTraffic where
  abort _ _ _ _ ht := ht.trans rfl
  queue t p q ht := ht.trans (State.sameButTraffic.trans (flushRecords_same p q _ t) rfl)

theorem abortTransmission_same (p : Port) (s : State) : s.sameButTraffic (abortTransmission p s) :=
  (flushKeeps_same s).abortTransmission p s (.refl s)

theorem flushPort_same (p : Port) (s : State) : s.sameButTraffic (flushPort p s) :=
  (flushKeeps_same s).flushPort p s (.refl s)

@[simp] theorem abortTransmission_fields (p : Port) (s : State) :
    (abortTransmission p s).time = s.time ∧ (abortTransmission p s).pins = s.pins
      ∧ (abortTransmission p s).straps = s.straps ∧ (abortTransmission p s).ports = s.ports
      ∧ (abortTransmission p s).classifier = s.classifier ∧ (abortTransmission p s).tracker = s.tracker
      ∧ (abortTransmission p s).sequencer = s.sequencer ∧ (abortTransmission p s).programs = s.programs
      ∧ (abortTransmission p s).agent = s.agent ∧ (abortTransmission p s).config = s.config
      ∧ (abortTransmission p s).notices = s.notices ∧ (abortTransmission p s).tieCount = s.tieCount
      ∧ (abortTransmission p s).handed = s.handed
      ∧ (abortTransmission p s).pending = s.pending := (abortTransmission_same p s).fields

@[simp] theorem flushPort_fields (p : Port) (s : State) :
    (flushPort p s).time = s.time ∧ (flushPort p s).pins = s.pins ∧ (flushPort p s).straps = s.straps
      ∧ (flushPort p s).ports = s.ports ∧ (flushPort p s).classifier = s.classifier
      ∧ (flushPort p s).tracker = s.tracker ∧ (flushPort p s).sequencer = s.sequencer
      ∧ (flushPort p s).programs = s.programs ∧ (flushPort p s).agent = s.agent ∧ (flushPort p s).config = s.config
      ∧ (flushPort p s).notices = s.notices ∧ (flushPort p s).tieCount = s.tieCount ∧ (flushPort p s).handed = s.handed
      ∧ (flushPort p s).pending = s.pending := (flushPort_same p s).fields

/-! ### Accessors that traffic leaves alone -/

theorem State.sameButTraffic.port {s t : State} (h : s.sameButTraffic t) (p : Port) : t.port p = s.port p := by
  unfold State.port
  rw [h.fields.2.2.2.1]

theorem State.sameButTraffic.speed {s t : State} (h : s.sameButTraffic t) (p : Port) : t.speed p = s.speed p := by
  cases p <;> simp only [State.speed, h.fields.2.2.1]

theorem State.sameButTraffic.quota {s t : State} (h : s.sameButTraffic t) (p : Port) (q : QueueName) :
    t.quota p q = s.quota p q := by
  simp only [State.quota, h.fields.2.2.2.2.2.2.2.2.2.1]

end Sys2Proof.Machine
end

