-- ==== Sys2Proof/Laws/Walk.lean ====
section
/-! SUPPORT. Notices, gate changes and the walk: what each shared operation can do, once, for the proofs that cite it. -/

namespace Sys2Proof.Machine

/-! ### Notices -/

theorem State.sameButNotices.refl (s : State) : s.sameButNotices s := rfl

theorem State.sameButNotices.trans {s t u : State} (h : s.sameButNotices t) (k : t.sameButNotices u) :
    s.sameButNotices u := by
  unfold State.sameButNotices at *
  rw [k, h]

theorem State.sameButTraffic.toNotices {s t : State} (h : s.sameButTraffic t) : s.sameButNotices t := by
  unfold State.sameButTraffic State.sameButNotices at *
  rw [h]

/-- The fields that notices leave alone. -/
theorem State.sameButNotices.fields {s t : State} (h : s.sameButNotices t) :
    t.time = s.time ∧ t.pins = s.pins ∧ t.straps = s.straps ∧ t.ports = s.ports ∧ t.classifier = s.classifier
      ∧ t.tracker = s.tracker ∧ t.sequencer = s.sequencer ∧ t.programs = s.programs ∧ t.agent = s.agent
      ∧ t.config = s.config ∧ t.tieCount = s.tieCount ∧ t.handed = s.handed ∧ t.pending = s.pending := by
  rw [h]
  exact ⟨rfl, rfl, rfl, rfl, rfl, rfl, rfl, rfl, rfl, rfl, rfl, rfl, rfl⟩

/-- A property that traffic keeps and that an enqueued, a dropped and an accepted notice keep. -/
structure NoticeKeeps (P : State → Prop) : Prop extends TrafficKeeps P where
  join : ∀ s n, s.agent.session.isOpen = true → s.notices.records.length < 8 → P s →
    P { s with notices := { s.notices with records := s.notices.records ++ [n] } }
  lost : ∀ s, s.agent.session.isOpen = true → P s → P { s with notices := { s.notices with loss := true } }
  sent : ∀ s n rest, s.notices.records = n :: rest → P s →
    P { s with notices := ⟨rest, s.notices.sequence + 1, false⟩ }

theorem NoticeKeeps.offerNotices {P : State → Prop} (k : NoticeKeeps P) :
    ∀ (fuel : Nat) (s : State), P s → P (Machine.offerNotices fuel s) := by
  intro fuel
  induction fuel with
  | zero => exact fun s h => h
  | succ fuel ih =>
    intro s h
    unfold Machine.offerNotices
    split
    · exact h
    · rename_i n rest heq
      simp only
      split
      · exact h
      · rename_i v
        refine ih _ (k.sent _ n rest ?_ (k.toTrafficKeeps.acceptFrame _ _ _ s v h))
        simpa using heq

theorem NoticeKeeps.offerAllNotices {P : State → Prop} (k : NoticeKeeps P) (s : State) (h : P s) :
    P (Machine.offerAllNotices s) := k.offerNotices _ s h

theorem NoticeKeeps.raiseNotice {P : State → Prop} (k : NoticeKeeps P) (d : NoticeDetail) (c : Count) (s : State)
    (h : P s) : P (Machine.raiseNotice d c s) := by
  unfold Machine.raiseNotice
  split
  · exact h
  · rename_i hopen
    have hopen' : s.agent.session.isOpen = true := by simpa using hopen
    split
    · exact h
    · split
      · exact k.agent _ _ (k.lost s hopen' h)
      · rename_i hroom
        exact k.offerAllNotices _ (k.join s _ hopen' (by simpa [Config.noticeCapacity] using hroom) h)

theorem noticeKeeps_same (s : State) : NoticeKeeps s.sameButNotices where
  hold _ _ _ ht := ht.trans (by unfold holdHead; split <;> rfl)
  start _ _ _ _ _ _ _ _ ht := ht.trans rfl
  store _ _ _ _ _ _ _ _ ht := ht.trans rfl
  drop _ _ _ _ ht := ht.trans rfl
  agent _ _ ht := ht.trans rfl
  join _ _ _ _ ht := ht.trans rfl
  lost _ _ ht := ht.trans rfl
  sent _ _ _ _ ht := ht.trans rfl

theorem raiseNotice_same (d : NoticeDetail) (c : Count) (s : State) : s.sameButNotices (raiseNotice d c s) :=
  (noticeKeeps_same s).raiseNotice d c s (.refl s)

theorem offerAllNotices_same (s : State) : s.sameButNotices (offerAllNotices s) :=
  (noticeKeeps_same s).offerAllNotices s (.refl s)

@[simp] theorem raiseNotice_fields (d : NoticeDetail) (c : Count) (s : State) :
    (raiseNotice d c s).time = s.time ∧ (raiseNotice d c s).pins = s.pins ∧ (raiseNotice d c s).straps = s.straps
      ∧ (raiseNotice d c s).ports = s.ports ∧ (raiseNotice d c s).classifier = s.classifier
      ∧ (raiseNotice d c s).tracker = s.tracker ∧ (raiseNotice d c s).sequencer = s.sequencer
      ∧ (raiseNotice d c s).programs = s.programs ∧ (raiseNotice d c s).agent = s.agent
      ∧ (raiseNotice d c s).config = s.config ∧ (raiseNotice d c s).tieCount = s.tieCount
      ∧ (raiseNotice d c s).handed = s.handed
      ∧ (raiseNotice d c s).pending = s.pending := (raiseNotice_same d c s).fields

@[simp] theorem offerAllNotices_fields (s : State) :
    (offerAllNotices s).time = s.time ∧ (offerAllNotices s).pins = s.pins ∧ (offerAllNotices s).straps = s.straps
      ∧ (offerAllNotices s).ports = s.ports ∧ (offerAllNotices s).classifier = s.classifier
      ∧ (offerAllNotices s).tracker = s.tracker ∧ (offerAllNotices s).sequencer = s.sequencer
      ∧ (offerAllNotices s).programs = s.programs ∧ (offerAllNotices s).agent = s.agent
      ∧ (offerAllNotices s).config = s.config ∧ (offerAllNotices s).tieCount = s.tieCount
      ∧ (offerAllNotices s).handed = s.handed
      ∧ (offerAllNotices s).pending = s.pending := (offerAllNotices_same s).fields

/-- Without a session a raised notice changes nothing (R178, step 1). -/
theorem raiseNotice_closed (d : NoticeDetail) (c : Count) (s : State) (h : s.agent.session.isOpen = false) :
    raiseNotice d c s = s := by
  simp [raiseNotice, h]

/-- A notice whose kind is not enabled changes nothing (R178, step 2). -/
theorem raiseNotice_disabled (d : NoticeDetail) (c : Count) (s : State) (h : noticeEnabled s d = false) :
    raiseNotice d c s = s := by
  unfold raiseNotice
  split
  · rfl
  · simp [h]

/-! ### The presentation a scheduler holds -/

@[simp] theorem startHead_presentation (p r : Port) (q : QueueName) (h : Handle) (rest : List Handle) (s : State) :
    ((startHead p q h rest s).sched r).presentation = (s.sched r).presentation := by
  unfold startHead
  cases p <;> cases r <;> rfl

@[simp] theorem storeAdmitted_presentation (p r : Port) (q : QueueName) (b : List Byte) (h : Handle) (rest : List Handle)
    (s : State) : ((storeAdmitted p q b h rest s).sched r).presentation = (s.sched r).presentation := by
  cases p <;> cases r <;> rfl

/-- Traffic and notices leave every scheduler's presentation alone. -/
theorem noticeKeeps_presentation (r : Port) (x : Presentation) :
    NoticeKeeps (fun s => (s.sched r).presentation = x) where
  hold _ _ _ h := by simpa using h
  start _ _ _ _ _ _ _ _ h := by simpa using h
  store _ _ _ _ _ _ _ _ h := by simpa using h
  drop _ _ _ _ h := h
  agent _ _ h := h
  join _ _ _ _ h := h
  lost _ _ h := h
  sent _ _ _ _ h := h

@[simp] theorem evaluate_presentation (p r : Port) (s : State) :
    ((evaluate p s).sched r).presentation = (s.sched r).presentation :=
  (noticeKeeps_presentation r _).toTrafficKeeps.evaluate p s rfl

@[simp] theorem raiseNotice_presentation (r : Port) (d : NoticeDetail) (c : Count) (s : State) :
    ((raiseNotice d c s).sched r).presentation = (s.sched r).presentation :=
  (noticeKeeps_presentation r _).raiseNotice d c s rfl

@[simp] theorem offerAllNotices_presentation (r : Port) (s : State) :
    ((offerAllNotices s).sched r).presentation = (s.sched r).presentation :=
  (noticeKeeps_presentation r _).offerAllNotices s rfl

@[simp] theorem offerForwarded_presentation (p r : Port) (q : QueueName) (b : List Byte) (s : State) :
    ((offerForwarded p q b s).sched r).presentation = (s.sched r).presentation :=
  (noticeKeeps_presentation r _).toTrafficKeeps.offerForwarded p q b s rfl

@[simp] theorem offerResponse_presentation (p r : Port) (b : List Byte) (s : State) :
    ((offerResponse p b s).sched r).presentation = (s.sched r).presentation :=
  (noticeKeeps_presentation r _).toTrafficKeeps.offerResponse p b s rfl

/-! ### Gate changes -/

/-- A property that traffic keeps and that a replaced presentation of a scheduler and a counted overrun keep. -/
structure GateKeeps (P : State → Prop) : Prop extends TrafficKeeps P where
  present : ∀ s p x, P s → P (s.setSched p { s.sched p with presentation := x })
  flag : ∀ s p f, (s.sched p).inFlight = some f → P s →
    P ((s.setInFlight p (some { f with overrunCounted := true })).countPort p
      (fun c => { c with overruns := Count.up c.overruns }))

theorem GateKeeps.takeGateChange {P : State → Prop} (k : GateKeeps P) (p : Port) (x : Presentation) (s : State)
    (h : P s) : P (Machine.takeGateChange p x s) := by
  unfold Machine.takeGateChange
  simp only
  split
  · rename_i f hf
    split
    · exact k.flag _ p f hf (k.present s p x h)
    · exact k.present s p x h
  · exact k.toTrafficKeeps.evaluate p _ (k.present s p x h)

theorem takeGateChange_same (p : Port) (x : Presentation) (s : State) : s.sameButTraffic (takeGateChange p x s) :=
  GateKeeps.takeGateChange
    { trafficKeeps_same s with
      present := fun _ _ _ ht => ht.trans rfl
      flag := fun _ _ _ _ ht => ht.trans rfl } p x s (.refl s)

@[simp] theorem takeGateChange_fields (p : Port) (x : Presentation) (s : State) :
    (takeGateChange p x s).time = s.time ∧ (takeGateChange p x s).pins = s.pins
      ∧ (takeGateChange p x s).straps = s.straps ∧ (takeGateChange p x s).ports = s.ports
      ∧ (takeGateChange p x s).classifier = s.classifier ∧ (takeGateChange p x s).tracker = s.tracker
      ∧ (takeGateChange p x s).sequencer = s.sequencer ∧ (takeGateChange p x s).programs = s.programs
      ∧ (takeGateChange p x s).agent = s.agent ∧ (takeGateChange p x s).config = s.config
      ∧ (takeGateChange p x s).notices = s.notices ∧ (takeGateChange p x s).tieCount = s.tieCount
      ∧ (takeGateChange p x s).handed = s.handed
      ∧ (takeGateChange p x s).pending = s.pending := (takeGateChange_same p x s).fields

/-- A gate change replaces the presentation of its own port's scheduler (R65). -/
theorem takeGateChange_presentation (p r : Port) (x : Presentation) (s : State) :
    ((takeGateChange p x s).sched r).presentation = if r = p then x else (s.sched r).presentation := by
  unfold takeGateChange
  simp only
  split
  · split <;> cases p <;> cases r <;> rfl
  · rw [evaluate_presentation, State.sched_setSched]
    split <;> rfl

/-- What a delivery to a port leaves: the traffic fields and the sequencer's presentation differ at most. -/
theorem presentTo_same (p : Port) (x : Presentation) (s : State) :
    ({ s with sequencer := { s.sequencer with presentation := s.sequencer.presentation.set p x } } : State).sameButTraffic
      (presentTo p x s) := by
  unfold presentTo
  split
  · rename_i h
    rw [← h, Pair.set_get]
    rfl
  · exact takeGateChange_same p x _

@[simp] theorem presentTo_fields (p : Port) (x : Presentation) (s : State) :
    (presentTo p x s).time = s.time ∧ (presentTo p x s).pins = s.pins ∧ (presentTo p x s).straps = s.straps
      ∧ (presentTo p x s).ports = s.ports ∧ (presentTo p x s).classifier = s.classifier
      ∧ (presentTo p x s).tracker = s.tracker
      ∧ (presentTo p x s).sequencer = { s.sequencer with presentation := s.sequencer.presentation.set p x }
      ∧ (presentTo p x s).programs = s.programs ∧ (presentTo p x s).agent = s.agent
      ∧ (presentTo p x s).config = s.config ∧ (presentTo p x s).notices = s.notices
      ∧ (presentTo p x s).tieCount = s.tieCount
      ∧ (presentTo p x s).handed = s.handed ∧ (presentTo p x s).pending = s.pending := (presentTo_same p x s).fields

theorem Pair.set_both {α : Type} (x y : Pair α) : (x.set .a y.a).set .b y.b = y := by
  cases y
  rfl

/-- After a delivery to both ports the sequencer holds what it presented, and nothing but traffic has changed beside it (R40). -/
@[simp] theorem presentBoth_fields (x : Pair Presentation) (s : State) :
    (presentBoth x s).time = s.time ∧ (presentBoth x s).pins = s.pins ∧ (presentBoth x s).straps = s.straps
      ∧ (presentBoth x s).ports = s.ports ∧ (presentBoth x s).classifier = s.classifier
      ∧ (presentBoth x s).tracker = s.tracker
      ∧ (presentBoth x s).sequencer = { s.sequencer with presentation := x }
      ∧ (presentBoth x s).programs = s.programs ∧ (presentBoth x s).agent = s.agent
      ∧ (presentBoth x s).config = s.config ∧ (presentBoth x s).notices = s.notices
      ∧ (presentBoth x s).tieCount = s.tieCount
      ∧ (presentBoth x s).handed = s.handed ∧ (presentBoth x s).pending = s.pending := by
  simp [presentBoth, Pair.set_both]

/-- A delivery puts the presentation into the scheduler, when the two records of it agreed before (R65, R79). -/
theorem presentTo_presentation (p r : Port) (x : Presentation) (s : State)
    (h : ∀ p, (s.sched p).presentation = s.sequencer.presentation.get p) :
    ((presentTo p x s).sched r).presentation = (presentTo p x s).sequencer.presentation.get r := by
  rw [(presentTo_fields p x s).2.2.2.2.2.2.1]
  unfold presentTo
  split
  · rename_i he
    rw [← he, Pair.set_get]
    exact h r
  · rw [takeGateChange_presentation, Pair.get_set]
    split
    · rfl
    · exact h r

theorem presentBoth_presentation (r : Port) (x : Pair Presentation) (s : State)
    (h : ∀ p, (s.sched p).presentation = s.sequencer.presentation.get p) :
    ((presentBoth x s).sched r).presentation = (presentBoth x s).sequencer.presentation.get r :=
  presentTo_presentation _ _ _ _ fun p => presentTo_presentation _ p _ _ h

/-! ### Swaps -/

@[simp] theorem swapBanks_fields (o : Occasion) (c : Count) (s : State) :
    (swapBanks o c s).time = s.time ∧ (swapBanks o c s).pins = s.pins ∧ (swapBanks o c s).straps = s.straps
      ∧ (swapBanks o c s).ports = s.ports ∧ (swapBanks o c s).classifier = s.classifier
      ∧ (swapBanks o c s).tracker = s.tracker ∧ (swapBanks o c s).sequencer = s.sequencer
      ∧ (swapBanks o c s).programs = { s.programs with active := s.programs.staged, commitPending := false }
      ∧ (swapBanks o c s).agent = s.agent ∧ (swapBanks o c s).config = s.config
      ∧ (swapBanks o c s).tieCount = s.tieCount
      ∧ (swapBanks o c s).handed = s.handed ∧ (swapBanks o c s).pending = s.pending := by
  simp [swapBanks]

/-- The programs after a pending commit, if there is one, is applied (R165). -/
def ProgramStore.applied (ps : ProgramStore) : ProgramStore :=
  if ps.commitPending then { ps with active := ps.staged, commitPending := false } else ps

@[simp] theorem applyPendingCommit_fields (o : Occasion) (c : Count) (s : State) :
    (applyPendingCommit o c s).time = s.time ∧ (applyPendingCommit o c s).pins = s.pins
      ∧ (applyPendingCommit o c s).straps = s.straps ∧ (applyPendingCommit o c s).ports = s.ports
      ∧ (applyPendingCommit o c s).classifier = s.classifier ∧ (applyPendingCommit o c s).tracker = s.tracker
      ∧ (applyPendingCommit o c s).sequencer = s.sequencer
      ∧ (applyPendingCommit o c s).programs = s.programs.applied
      ∧ (applyPendingCommit o c s).agent = s.agent ∧ (applyPendingCommit o c s).config = s.config
      ∧ (applyPendingCommit o c s).tieCount = s.tieCount
      ∧ (applyPendingCommit o c s).handed = s.handed ∧ (applyPendingCommit o c s).pending = s.pending := by
  unfold applyPendingCommit ProgramStore.applied
  split <;> simp_all

theorem ProgramStore.applied_commitPending (ps : ProgramStore) : ps.applied.commitPending = false := by
  unfold ProgramStore.applied
  split
  · rfl
  · rename_i h
    simpa using h

theorem ProgramStore.activeBank_swap (ps : ProgramStore) (b : Bool) :
    ({ ps with active := ps.staged, commitPending := b } : ProgramStore).activeBank = ps.stagedBank := by
  unfold ProgramStore.activeBank ProgramStore.staged ProgramStore.stagedBank
  cases ps.active <;> rfl

theorem ProgramStore.stagedBank_swap (ps : ProgramStore) (b : Bool) :
    ({ ps with active := ps.staged, commitPending := b } : ProgramStore).stagedBank = ps.activeBank := by
  unfold ProgramStore.activeBank ProgramStore.staged ProgramStore.stagedBank
  cases ps.active <;> rfl

@[simp] theorem ProgramStore.activeBank_setStaged (ps : ProgramStore) (b : Bank) :
    (ps.setStaged b).activeBank = ps.activeBank := by
  unfold ProgramStore.setStaged
  split <;> simp [ProgramStore.activeBank, *]

@[simp] theorem ProgramStore.stagedBank_setStaged (ps : ProgramStore) (b : Bank) :
    (ps.setStaged b).stagedBank = b := by
  unfold ProgramStore.setStaged
  split <;> simp [ProgramStore.stagedBank, *]

@[simp] theorem ProgramStore.active_setStaged (ps : ProgramStore) (b : Bank) : (ps.setStaged b).active = ps.active := by
  unfold ProgramStore.setStaged
  split <;> simp [*]

@[simp] theorem ProgramStore.commitPending_setStaged (ps : ProgramStore) (b : Bank) :
    (ps.setStaged b).commitPending = ps.commitPending := by
  unfold ProgramStore.setStaged
  split <;> rfl

end Sys2Proof.Machine
end

