-- ==== Sys2Proof/Laws/Sequencer.lean ====
section
/-! SUPPORT. The Phase Sequencer: what each of its operations can do, once, for the proofs that cite it. -/

namespace Sys2Proof.Machine

theorem State.sameButWalk.refl (s : State) : s.sameButWalk s := rfl

theorem State.sameButWalk.trans {s t u : State} (h : s.sameButWalk t) (k : t.sameButWalk u) : s.sameButWalk u := by
  unfold State.sameButWalk at *
  rw [k, h]

theorem State.sameButNotices.toWalk {s t : State} (h : s.sameButNotices t) : s.sameButWalk t := by
  unfold State.sameButNotices State.sameButWalk at *
  rw [h]

theorem State.sameButTraffic.toWalk {s t : State} (h : s.sameButTraffic t) : s.sameButWalk t := h.toNotices.toWalk

/-- The fields that the walk leaves alone. -/
theorem State.sameButWalk.fields {s t : State} (h : s.sameButWalk t) :
    t.time = s.time ∧ t.pins.resetN = s.pins.resetN ∧ t.pins.phy = s.pins.phy ∧ t.pins.lock = s.pins.lock
      ∧ t.straps = s.straps ∧ t.ports = s.ports ∧ t.classifier = s.classifier ∧ t.tracker = s.tracker
      ∧ t.agent = s.agent ∧ t.config = s.config ∧ t.tieCount = s.tieCount ∧ t.handed = s.handed ∧ t.pending = s.pending := by
  rw [h]
  exact ⟨rfl, rfl, rfl, rfl, rfl, rfl, rfl, rfl, rfl, rfl, rfl, rfl, rfl⟩

theorem presentBoth_walk (x : Pair Presentation) (s : State) : s.sameButWalk (presentBoth x s) :=
  State.sameButWalk.trans
    (State.sameButWalk.trans (t := { s with sequencer := { s.sequencer with
        presentation := s.sequencer.presentation.set .a x.a } }) rfl (presentTo_same .a x.a s).toWalk)
    (State.sameButWalk.trans (t := { presentTo .a x.a s with sequencer := { (presentTo .a x.a s).sequencer with
        presentation := (presentTo .a x.a s).sequencer.presentation.set .b x.b } }) rfl (presentTo_same .b x.b _).toWalk)

theorem applyPendingCommit_walk (o : Occasion) (c : Count) (s : State) : s.sameButWalk (applyPendingCommit o c s) := by
  unfold applyPendingCommit
  split
  · exact State.sameButWalk.trans (t := { s with
      programs := { s.programs with active := s.programs.staged, commitPending := false } }) rfl (raiseNotice_same _ _ _).toWalk
  · exact .refl s

/-- The fields that an entry becoming current leaves alone. -/
theorem enterEntry_fields (i : EntryIndex) (m : Time) (s : State) :
    (enterEntry i m s).time = s.time ∧ (enterEntry i m s).pins = s.pins ∧ (enterEntry i m s).straps = s.straps
      ∧ (enterEntry i m s).ports = s.ports ∧ (enterEntry i m s).egress = s.egress ∧ (enterEntry i m s).pool = s.pool
      ∧ (enterEntry i m s).classifier = s.classifier ∧ (enterEntry i m s).tracker = s.tracker
      ∧ (enterEntry i m s).programs = s.programs ∧ (enterEntry i m s).agent = s.agent
      ∧ (enterEntry i m s).config = s.config ∧ (enterEntry i m s).notices = s.notices
      ∧ (enterEntry i m s).tieCount = s.tieCount
      ∧ (enterEntry i m s).handed = s.handed ∧ (enterEntry i m s).pending = s.pending :=
  ⟨rfl, rfl, rfl, rfl, rfl, rfl, rfl, rfl, rfl, rfl, rfl, rfl, rfl, rfl, rfl⟩

/-- What an entry that becomes current leaves of the sequencer (R47). -/
theorem enterEntry_sequencer (i : EntryIndex) (m : Time) (s : State) :
    (enterEntry i m s).sequencer =
      { s.sequencer with
        current := (enterEntry i m s).sequencer.current
        endTime := entryEndTime s.sequencer.origin s.sequencer.span (enterEntry i m s).currentEntry.ending
        stepSeen := false
        pending := none
        settle := none
        deadline := entryDeadlineOf (enterEntry i m s).currentEntry.ending (enterEntry i m s).sequencer.endTime } := rfl

theorem moveTo_walk (i : EntryIndex) (m : Time) (s : State) : s.sameButWalk (moveTo i m s) :=
  State.sameButWalk.trans (t := enterEntry i m s) rfl (presentBoth_walk _ _)

theorem leaveEntry_walk (s : State) : s.sameButWalk (leaveEntry s) := by
  unfold leaveEntry
  simp only
  split <;> rfl

/-- What leaving an entry leaves of the sequencer and the programs (R52). -/
@[simp] theorem leaveEntry_fields (s : State) :
    (leaveEntry s).sequencer = { s.sequencer with deadline := none, settle := none, stepSeen := false, pending := none }
      ∧ (leaveEntry s).programs = s.programs ∧ (leaveEntry s).pins = s.pins ∧ (leaveEntry s).egress = s.egress
      ∧ (leaveEntry s).pool = s.pool ∧ (leaveEntry s).notices = s.notices ∧ (leaveEntry s).time = s.time
      ∧ (leaveEntry s).config = s.config ∧ (leaveEntry s).tracker = s.tracker ∧ (leaveEntry s).agent = s.agent
      ∧ (leaveEntry s).straps = s.straps ∧ (leaveEntry s).ports = s.ports ∧ (leaveEntry s).classifier = s.classifier
      ∧ (leaveEntry s).tieCount = s.tieCount ∧ (leaveEntry s).handed = s.handed ∧ (leaveEntry s).pending = s.pending := by
  unfold leaveEntry
  simp only
  split <;> exact ⟨rfl, rfl, rfl, rfl, rfl, rfl, rfl, rfl, rfl, rfl, rfl, rfl, rfl, rfl, rfl, rfl⟩

/-- Leaving an entry, as one update (R52). -/
theorem leaveEntry_eq (s : State) : leaveEntry s = { s with
    sequencer := { s.sequencer with deadline := none, settle := none, stepSeen := false, pending := none }
    counters := { s.counters with sequencer := { s.counters.sequencer with
      settleCancels := if s.sequencer.pending = none then s.counters.sequencer.settleCancels
        else Count.up s.counters.sequencer.settleCancels } } } := by
  unfold leaveEntry
  cases h : s.sequencer.pending <;> rfl

/-- The end of a running cycle leaves its entry, and counts a truncation unless that is a TAIL (R45). -/
theorem endCycle_eq (s : State) : endCycle s = if s.currentEntry.ending = .tail then leaveEntry s
    else (leaveEntry s).countSequencer (fun c => { c with truncations := Count.up c.truncations }) := by
  unfold endCycle
  cases h : s.currentEntry.ending <;> simp

theorem sequencerLockLoss_walk (s : State) : s.sameButWalk (sequencerLockLoss s) := by
  unfold sequencerLockLoss
  split
  · exact ((leaveEntry_walk s).trans (State.sameButWalk.trans (t := { leaveEntry s with
      sequencer := { (leaveEntry s).sequencer with state := .free, cycle := 0 } }) rfl (presentBoth_walk _ _))).trans
      (applyPendingCommit_walk _ _ _)
  · exact .refl s

theorem sequencerDisable_walk (s : State) : s.sameButWalk (sequencerDisable s) := by
  have h : s.sameButWalk (applyPendingCommit .stoppedEntry ({ leaveEntry s with
      sequencer := { (leaveEntry s).sequencer with state := .stopped } } : State).sequencer.cycle
      (presentBoth (freePresentation { leaveEntry s with
        sequencer := { (leaveEntry s).sequencer with state := .stopped } })
        { leaveEntry s with sequencer := { (leaveEntry s).sequencer with state := .stopped } })) :=
    ((leaveEntry_walk s).trans (State.sameButWalk.trans (t := { leaveEntry s with
      sequencer := { (leaveEntry s).sequencer with state := .stopped } }) rfl (presentBoth_walk _ _))).trans
      (applyPendingCommit_walk _ _ _)
  unfold sequencerDisable
  split
  · exact .refl s
  · rfl
  · exact h
  · exact h
  · exact h

theorem sequencerEnable_walk (s : State) : s.sameButWalk (sequencerEnable s) := by
  unfold sequencerEnable
  split <;> rfl

theorem freeGatesWritten_walk (s : State) : s.sameButWalk (freeGatesWritten s) := by
  unfold freeGatesWritten
  split <;> first | exact presentBoth_walk _ s | exact .refl s

theorem sequencerHalt_walk (s : State) : s.sameButWalk (sequencerHalt s) :=
  (leaveEntry_walk s).trans (State.sameButWalk.trans (t := { leaveEntry s with
    sequencer := { (leaveEntry s).sequencer with state := .halted } }) rfl (presentBoth_walk _ _))

theorem startPulse_walk (s : State) : s.sameButWalk (startPulse s) := by
  unfold startPulse
  split <;> rfl

theorem endCycle_walk (s : State) : s.sameButWalk (endCycle s) := by
  unfold endCycle
  simp only
  split
  · exact (leaveEntry_walk s).trans rfl
  · exact (leaveEntry_walk s).trans rfl
  · exact leaveEntry_walk s

theorem takeStepMark_walk (t : Time) (s : State) : s.sameButWalk (takeStepMark t s) := by
  unfold takeStepMark
  split
  · split
    · split
      · rfl
      · unfold stepInEntry
        simp only
        split
        · exact moveTo_walk _ _ s
        · split <;> rfl
    · rfl
    · rfl
  all_goals rfl

theorem entryDeadlineTaken_walk (s : State) : s.sameButWalk (entryDeadlineTaken s) := by
  unfold entryDeadlineTaken
  split
  · exact moveTo_walk _ _ s
  · refine State.sameButWalk.trans ?_ (moveTo_walk _ _ _)
    split <;> rfl
  · rfl

theorem settleTaken_walk (s : State) : s.sameButWalk (settleTaken s) := by
  unfold settleTaken
  split
  · exact moveTo_walk _ _ s
  · rfl

/-! ### The sequencer, the programs and the pulse after each operation -/

@[simp] theorem endCycle_fields (s : State) :
    (endCycle s).sequencer = { s.sequencer with deadline := none, settle := none, stepSeen := false, pending := none }
      ∧ (endCycle s).programs = s.programs ∧ (endCycle s).pins = s.pins := by
  unfold endCycle
  simp only
  split <;> simp

/-- The walk in RUNNING once an entry has been entered from a target (R47, R39). -/
theorem moveTo_sequencer (i : EntryIndex) (m : Time) (s : State) :
    (moveTo i m s).sequencer =
      { (enterEntry i m s).sequencer with presentation := runningPresentation (enterEntry i m s) } := by
  simp [moveTo, presentRunning]

theorem moveTo_programs (i : EntryIndex) (m : Time) (s : State) : (moveTo i m s).programs = s.programs := by
  simp [moveTo, presentRunning, enterEntry_fields]

theorem moveTo_pins (i : EntryIndex) (m : Time) (s : State) : (moveTo i m s).pins = s.pins := by
  simp [moveTo, presentRunning, enterEntry_fields]

@[simp] theorem startPulse_fields (s : State) :
    (startPulse s).sequencer
        = { s.sequencer with
            pulseEnd := if s.config.syncOutEnable then some (Time.plus s.time 125) else s.sequencer.pulseEnd }
      ∧ (startPulse s).pins = { s.pins with syncOut := s.config.syncOutEnable || s.pins.syncOut }
      ∧ (startPulse s).programs = s.programs ∧ (startPulse s).egress = s.egress ∧ (startPulse s).pool = s.pool
      ∧ (startPulse s).counters = s.counters ∧ (startPulse s).notices = s.notices := by
  unfold startPulse
  split <;> rename_i h
  · simp [h, Config.syncPulseTicks]
  · simp [h]

theorem cycleBegun_sequencer (origin : Time) (ref : Nat) (s : State) :
    (cycleBegun origin ref s).sequencer
      = { s.sequencer with cycle := nextCycle s.sequencer, origin := origin, span := ref } := by
  simp [cycleBegun]

theorem cycleBegun_programs (origin : Time) (ref : Nat) (s : State) :
    (cycleBegun origin ref s).programs = s.programs.applied := by
  simp [cycleBegun]

theorem cycleRunning_walk (origin : Time) (ref : Nat) (s : State) : s.sameButWalk (cycleRunning origin ref s) :=
  (applyPendingCommit_walk .cycleStart (nextCycle s.sequencer) s).trans rfl

theorem startCycle_walk (origin : Time) (ref : Nat) (s : State) : s.sameButWalk (startCycle origin ref s) :=
  ((cycleRunning_walk origin ref s).trans (presentBoth_walk _ _)).trans (startPulse_walk _)

/-- The sequencer after a cycle start (R46). -/
theorem startCycle_sequencer (origin : Time) (ref : Nat) (s : State) :
    (startCycle origin ref s).sequencer =
      { (cycleEntered origin ref s).sequencer with
        state := .running
        presentation := runningPresentation (cycleEntered origin ref s)
        pulseEnd := if s.config.syncOutEnable then some (Time.plus s.time 125) else s.sequencer.pulseEnd } := by
  have hw := (cycleRunning_walk origin ref s).fields
  have hp : (cycleEntered origin ref s).sequencer.pulseEnd = s.sequencer.pulseEnd := by
    have : (cycleBegun origin ref s).sequencer.pulseEnd = s.sequencer.pulseEnd := by rw [cycleBegun_sequencer]
    exact this
  unfold startCycle presentRunning
  rw [(startPulse_fields _).1]
  simp only [presentBoth_fields, hw]
  rw [← hp]
  rfl

/-- The programs after a cycle start: a pending commit is applied (R46, step 1). -/
theorem startCycle_programs (origin : Time) (ref : Nat) (s : State) :
    (startCycle origin ref s).programs = s.programs.applied := by
  unfold startCycle presentRunning
  rw [(startPulse_fields _).2.2.1]
  simp only [presentBoth_fields]
  exact cycleBegun_programs origin ref s

/-- The pins after a cycle start: SYNC_OUT rises while its enable is on (R46, step 8). -/
theorem startCycle_pins (origin : Time) (ref : Nat) (s : State) :
    (startCycle origin ref s).pins = { s.pins with syncOut := s.config.syncOutEnable || s.pins.syncOut } := by
  have hw := (cycleRunning_walk origin ref s).fields
  have hp : (cycleRunning origin ref s).pins = s.pins := by
    have : (cycleBegun origin ref s).pins = s.pins := by simp [cycleBegun]
    exact this
  unfold startCycle presentRunning
  rw [(startPulse_fields _).2.1]
  simp only [presentBoth_fields, hw, hp]

theorem takeBoundary_walk (origin : Time) (ref : Nat) (s : State) : s.sameButWalk (takeBoundary origin ref s) := by
  unfold takeBoundary
  split
  · exact .refl s
  · exact startCycle_walk _ _ s
  · exact (endCycle_walk s).trans (startCycle_walk _ _ _)
  · rfl
  · exact startCycle_walk _ _ s

end Sys2Proof.Machine
end

