-- ==== Sys2Proof/Laws/Tracker.lean ====
section
/-! SUPPORT. The Cadence Tracker: what each of its operations can do, once, for the proofs that cite it. -/

namespace Sys2Proof.Machine

/-- The fields that a boundary leaves alone. -/
@[simp] theorem takeBoundary_fields (t : Time) (ref : Nat) (s : State) :
    (takeBoundary t ref s).time = s.time ∧ (takeBoundary t ref s).pins.resetN = s.pins.resetN
      ∧ (takeBoundary t ref s).pins.phy = s.pins.phy ∧ (takeBoundary t ref s).pins.lock = s.pins.lock
      ∧ (takeBoundary t ref s).straps = s.straps ∧ (takeBoundary t ref s).ports = s.ports
      ∧ (takeBoundary t ref s).classifier = s.classifier ∧ (takeBoundary t ref s).tracker = s.tracker
      ∧ (takeBoundary t ref s).agent = s.agent ∧ (takeBoundary t ref s).config = s.config
      ∧ (takeBoundary t ref s).tieCount = s.tieCount
      ∧ (takeBoundary t ref s).handed = s.handed ∧ (takeBoundary t ref s).pending = s.pending :=
  (takeBoundary_walk t ref s).fields

/-- The fields that a step mark leaves alone. -/
@[simp] theorem takeStepMark_fields (t : Time) (s : State) :
    (takeStepMark t s).time = s.time ∧ (takeStepMark t s).pins.resetN = s.pins.resetN
      ∧ (takeStepMark t s).pins.phy = s.pins.phy ∧ (takeStepMark t s).pins.lock = s.pins.lock
      ∧ (takeStepMark t s).straps = s.straps ∧ (takeStepMark t s).ports = s.ports
      ∧ (takeStepMark t s).classifier = s.classifier ∧ (takeStepMark t s).tracker = s.tracker
      ∧ (takeStepMark t s).agent = s.agent ∧ (takeStepMark t s).config = s.config
      ∧ (takeStepMark t s).tieCount = s.tieCount
      ∧ (takeStepMark t s).handed = s.handed ∧ (takeStepMark t s).pending = s.pending :=
  (takeStepMark_walk t s).fields

/-- The fields that the sequencer's part in a lock loss leaves alone. -/
@[simp] theorem sequencerLockLoss_fields (s : State) :
    (sequencerLockLoss s).time = s.time ∧ (sequencerLockLoss s).pins.resetN = s.pins.resetN
      ∧ (sequencerLockLoss s).pins.phy = s.pins.phy ∧ (sequencerLockLoss s).pins.lock = s.pins.lock
      ∧ (sequencerLockLoss s).straps = s.straps ∧ (sequencerLockLoss s).ports = s.ports
      ∧ (sequencerLockLoss s).classifier = s.classifier ∧ (sequencerLockLoss s).tracker = s.tracker
      ∧ (sequencerLockLoss s).agent = s.agent ∧ (sequencerLockLoss s).config = s.config
      ∧ (sequencerLockLoss s).tieCount = s.tieCount
      ∧ (sequencerLockLoss s).handed = s.handed ∧ (sequencerLockLoss s).pending = s.pending :=
  (sequencerLockLoss_walk s).fields

theorem State.sameButCadence.refl (s : State) : s.sameButCadence s := rfl

theorem State.sameButCadence.trans {s t u : State} (h : s.sameButCadence t) (k : t.sameButCadence u) :
    s.sameButCadence u := by
  unfold State.sameButCadence at *
  rw [k, h]

theorem State.sameButWalk.toCadence {s t : State} (h : s.sameButWalk t) : s.sameButCadence t := by
  unfold State.sameButWalk State.sameButCadence at *
  rw [h]

/-- The fields that the cadence leaves alone. -/
theorem State.sameButCadence.fields {s t : State} (h : s.sameButCadence t) :
    t.time = s.time ∧ t.pins.resetN = s.pins.resetN ∧ t.pins.phy = s.pins.phy ∧ t.straps = s.straps
      ∧ t.ports = s.ports ∧ t.classifier = s.classifier ∧ t.agent = s.agent ∧ t.config = s.config
      ∧ t.tieCount = s.tieCount ∧ t.handed = s.handed ∧ t.pending = s.pending := by
  rw [h]
  exact ⟨rfl, rfl, rfl, rfl, rfl, rfl, rfl, rfl, rfl, rfl, rfl⟩

/-! ### Lock loss -/

theorem lockLoss_cadence (c : LossCause) (s : State) : s.sameButCadence (lockLoss c s) := by
  unfold lockLoss
  simp only
  refine State.sameButCadence.trans ?_ (sequencerLockLoss_walk _).toCadence
  refine State.sameButCadence.trans (t := raiseNotice (.lockLost c) _ _) ?_ rfl
  refine State.sameButCadence.trans ?_ (raiseNotice_same _ _ _).toWalk.toCadence
  rfl

/-- The tracker and the LOCK pin after a lock loss (R16). -/
@[simp] theorem lockLoss_tracker (c : LossCause) (s : State) :
    (lockLoss c s).tracker = s.tracker.cleared c.stateAfter ∧ (lockLoss c s).pins.lock = false := by
  simp [lockLoss]

/-! ### Marks -/

theorem countAccepted_fields (s : State) :
    (countAccepted s).tracker = s.tracker ∧ (countAccepted s).pins = s.pins ∧ (countAccepted s).config = s.config
      ∧ (countAccepted s).sequencer = s.sequencer ∧ (countAccepted s).programs = s.programs
      ∧ (countAccepted s).time = s.time := ⟨rfl, rfl, rfl, rfl, rfl, rfl⟩

theorem firstMark_cadence (t : Time) (s : State) : s.sameButCadence (firstMark t s) := rfl

theorem acquireLock_cadence (t : Time) (s : State) : s.sameButCadence (acquireLock t s) := by
  unfold acquireLock
  simp only
  refine State.sameButCadence.trans ?_ (takeBoundary_walk _ _ _).toCadence
  refine State.sameButCadence.trans ?_ (raiseNotice_same _ _ _).toWalk.toCadence
  rfl

/-- The tracker and the LOCK pin as the tracker locks (R8). -/
@[simp] theorem acquireLock_tracker (t : Time) (s : State) :
    (acquireLock t s).tracker =
        { s.tracker with
          state := .locked
          ref := some (meanOfNewest s.config.depth s.tracker.history)
          missing := 0
          synthesised := false
          wait := windowWait t (meanOfNewest s.config.depth s.tracker.history) s.config.window }
      ∧ (acquireLock t s).pins.lock = true := by
  simp [acquireLock]

theorem markAcquiring_cadence (t : Time) (s : State) : s.sameButCadence (markAcquiring t s) := by
  unfold markAcquiring
  simp only
  split
  · rfl
  · split
    · exact State.sameButCadence.trans
        (t := countAccepted (s.setTracker { s.tracker.capture (Time.since t s.tracker.boundary) with boundary := t })) rfl
        (acquireLock_cadence _ _)
    · rfl

theorem acceptMark_cadence (t : Time) (ref : Nat) (s : State) : s.sameButCadence (acceptMark t ref s) := by
  unfold acceptMark
  simp only
  refine State.sameButCadence.trans ?_ (takeBoundary_walk _ _ _).toCadence
  split
  · refine State.sameButCadence.trans ?_ (raiseNotice_same _ _ _).toWalk.toCadence
    rfl
  · rfl

/-- The tracker and the LOCK pin after an accepted mark (R11). -/
@[simp] theorem acceptMark_tracker (t : Time) (ref : Nat) (s : State) :
    (acceptMark t ref s).tracker =
        { examineSpan t s with
          state := .locked
          boundary := t
          synthesised := false
          missing := 0
          wait := windowWait t ((examineSpan t s).ref.getD ref) s.config.window }
      ∧ (acceptMark t ref s).pins.lock = s.pins.lock := by
  unfold acceptMark
  simp only
  split <;> simp [countAccepted]

theorem markInWindow_cadence (t : Time) (s : State) : s.sameButCadence (markInWindow t s) := by
  unfold markInWindow
  split
  · exact .refl s
  · simp only
    split
    · rfl
    · split
      · exact .refl s
      · exact acceptMark_cadence _ _ _

theorem takeCycleMark_cadence (t : Time) (s : State) : s.sameButCadence (takeCycleMark t s) := by
  unfold takeCycleMark
  split
  · exact .refl s
  · exact firstMark_cadence _ _
  · exact markAcquiring_cadence _ _
  · exact markInWindow_cadence _ _
  · exact markInWindow_cadence _ _

theorem trackerDisturbed_cadence (c : LossCause) (s : State) : s.sameButCadence (trackerDisturbed c s) := by
  unfold trackerDisturbed
  split
  · exact .refl s
  · exact .refl s
  · rfl
  · exact lockLoss_cadence _ _
  · exact lockLoss_cadence _ _

theorem trackerEnable_cadence (s : State) : s.sameButCadence (trackerEnable s) := by
  unfold trackerEnable
  split <;> rfl

theorem trackerDisable_cadence (s : State) : s.sameButCadence (trackerDisable s) := by
  unfold trackerDisable
  split
  · exact .refl s
  · rfl
  · rfl
  · exact lockLoss_cadence _ _
  · exact lockLoss_cadence _ _

theorem carryCycle_cadence (ref : Nat) (s : State) : s.sameButCadence (carryCycle ref s) := by
  unfold carryCycle
  simp only
  refine State.sameButCadence.trans ?_ (takeBoundary_walk _ _ _).toCadence
  split
  · refine State.sameButCadence.trans ?_ (raiseNotice_same _ _ _).toWalk.toCadence
    rfl
  · rfl

/-- The tracker and the LOCK pin as a missing mark is carried (R12). -/
@[simp] theorem carryCycle_tracker (ref : Nat) (s : State) :
    (carryCycle ref s).tracker =
        { s.tracker with
          state := .holdover
          boundary := Time.plus s.tracker.boundary ref
          missing := s.tracker.missing + 1
          synthesised := true
          wait := windowWait (Time.plus s.tracker.boundary ref) ref s.config.window }
      ∧ (carryCycle ref s).pins.lock = s.pins.lock := by
  unfold carryCycle
  simp only
  split <;> simp

theorem windowCloseTaken_cadence (ref : Nat) (s : State) : s.sameButCadence (windowCloseTaken ref s) := by
  unfold windowCloseTaken
  simp only
  split
  · exact State.sameButCadence.trans
      (t := s.countTracker (fun c => { c with missingMarks := Count.up c.missingMarks })) rfl (carryCycle_cadence _ _)
  · exact State.sameButCadence.trans
      (t := s.countTracker (fun c => { c with missingMarks := Count.up c.missingMarks })) rfl (lockLoss_cadence _ _)

/-- A delivered or off-port mark (R108). -/
theorem deliverMark_cadence (k : MarkKind) (p : Port) (s : State) : s.sameButCadence (deliverMark k p s) := by
  unfold deliverMark
  split
  · exact .refl s
  · split
    · exact takeCycleMark_cadence _ _
    · rfl
  · split
    · exact (takeStepMark_walk _ _).toCadence
    · rfl

end Sys2Proof.Machine
end

