-- ==== Sys2Proof/Laws/Counters.lean ====
section
/-! SUPPORT. Which operations leave the counters of the tracker and of the sequencer group alone, and what the walk does to them. -/

namespace Sys2Proof.Machine

/-- Traffic and notices count nothing in the tracker and the sequencer group. -/
theorem noticeKeeps_groups (x : TrackerCounters) (y : SequencerCounters) :
    NoticeKeeps (fun s => s.counters.tracker = x ∧ s.counters.sequencer = y) where
  hold _ _ _ h := by unfold holdHead; split <;> exact h
  start _ _ _ _ _ _ _ _ h := h
  store _ _ _ _ _ _ _ _ h := h
  drop _ _ _ _ h := h
  agent _ _ h := h
  join _ _ _ _ h := h
  lost _ _ h := h
  sent _ _ _ _ h := h

@[simp] theorem evaluate_groups (p : Port) (s : State) :
    (evaluate p s).counters.tracker = s.counters.tracker ∧ (evaluate p s).counters.sequencer = s.counters.sequencer :=
  (noticeKeeps_groups _ _).toTrafficKeeps.evaluate p s ⟨rfl, rfl⟩

@[simp] theorem raiseNotice_groups (d : NoticeDetail) (c : Count) (s : State) :
    (raiseNotice d c s).counters.tracker = s.counters.tracker
      ∧ (raiseNotice d c s).counters.sequencer = s.counters.sequencer :=
  (noticeKeeps_groups _ _).raiseNotice d c s ⟨rfl, rfl⟩

@[simp] theorem offerAllNotices_groups (s : State) :
    (offerAllNotices s).counters.tracker = s.counters.tracker
      ∧ (offerAllNotices s).counters.sequencer = s.counters.sequencer :=
  (noticeKeeps_groups _ _).offerAllNotices s ⟨rfl, rfl⟩

@[simp] theorem takeGateChange_groups (p : Port) (x : Presentation) (s : State) :
    (takeGateChange p x s).counters.tracker = s.counters.tracker
      ∧ (takeGateChange p x s).counters.sequencer = s.counters.sequencer :=
  GateKeeps.takeGateChange
    { (noticeKeeps_groups _ _).toTrafficKeeps with
      present := fun _ _ _ h => h
      flag := fun _ _ _ _ h => h } p x s ⟨rfl, rfl⟩

@[simp] theorem presentTo_groups (p : Port) (x : Presentation) (s : State) :
    (presentTo p x s).counters.tracker = s.counters.tracker
      ∧ (presentTo p x s).counters.sequencer = s.counters.sequencer := by
  unfold presentTo
  split <;> simp

@[simp] theorem presentBoth_groups (x : Pair Presentation) (s : State) :
    (presentBoth x s).counters.tracker = s.counters.tracker
      ∧ (presentBoth x s).counters.sequencer = s.counters.sequencer := by
  simp [presentBoth]

@[simp] theorem applyPendingCommit_groups (o : Occasion) (c : Count) (s : State) :
    (applyPendingCommit o c s).counters.tracker = s.counters.tracker
      ∧ (applyPendingCommit o c s).counters.sequencer = s.counters.sequencer := by
  unfold applyPendingCommit swapBanks
  split <;> simp

/-- What leaving an entry counts: a settle cancel when a transition was pending (R52). -/
@[simp] theorem leaveEntry_groups (s : State) :
    (leaveEntry s).counters.tracker = s.counters.tracker
      ∧ (leaveEntry s).counters.sequencer =
        { s.counters.sequencer with
          settleCancels := if s.sequencer.pending = none then s.counters.sequencer.settleCancels
            else Count.up s.counters.sequencer.settleCancels } := by
  unfold leaveEntry
  cases h : s.sequencer.pending <;> simp

/-- What a cycle start counts: the skipped entries and the cycle (R46, R47). -/
theorem startCycle_groups (origin : Time) (ref : Nat) (s : State) :
    (startCycle origin ref s).counters.tracker = s.counters.tracker
      ∧ (startCycle origin ref s).counters.sequencer =
        { s.counters.sequencer with
          cycles := Count.up s.counters.sequencer.cycles
          skippedEntries := Count.upBy
            (examine s.programs.applied.activeBank origin ref s.time 32
              (startEntry s.programs.applied.activeBank (nextCycle s.sequencer)) 0).2
            s.counters.sequencer.skippedEntries } := by
  have h := applyPendingCommit_groups .cycleStart (nextCycle s.sequencer) s
  unfold startCycle presentRunning
  rw [(startPulse_fields _).2.2.2.2.2.1]
  simp only [presentBoth_groups, cycleRunning, cycleEntered, enterEntry, cycleBegun, State.countSequencer, h,
    applyPendingCommit_fields, and_self]

/-- A lock loss counts itself in the tracker group, and a discarded pending transition in the sequencer group (R16, R52). -/
theorem lockLoss_groups (c : LossCause) (s : State) :
    (lockLoss c s).counters.tracker
        = { s.counters.tracker with lockLosses := Count.up s.counters.tracker.lockLosses } := by
  unfold lockLoss sequencerLockLoss
  simp only
  split <;> simp [State.setLock, State.countTracker]

end Sys2Proof.Machine
end

