-- ==== Sys2Proof/Laws/Flushes.lean ====
section
/-! SUPPORT. Aborts and flushes (R75, R126): what each leaves of the queues, the free-record list, the cells and the counters. -/

namespace Sys2Proof.Machine

/-- Records have been freed at a port: they stand at the back of the free-record list in their order, and the cells of distinct ones at the back of
the free-cell list in the same order (R125); the other records, the cells' bytes and the other port's scheduler stand, the port's scheduler keeps
its presentation, and of the counters only those of the port's queues may have changed. -/
structure State.freesAt (s t : State) (p : Port) (freed : List Handle) : Prop where
  records : t.pool.freeRecords = s.pool.freeRecords ++ freed
  cells : freed.Nodup → t.pool.freeCells = s.pool.freeCells ++ freed.flatMap (fun h => (s.record h).cells)
  keeps : ∀ h, h ∉ freed → t.record h = s.record h
  memory : t.pool.memory = s.pool.memory
  presentation : (t.sched p).presentation = (s.sched p).presentation
  others : t.sched p.opposite = s.sched p.opposite
  counters : t.counters = { s.counters with queues := t.counters.queues }
  groups : t.counters.queues.get p.opposite = s.counters.queues.get p.opposite

theorem State.freesAt.refl (s : State) (p : Port) : s.freesAt s p [] :=
  ⟨(List.append_nil _).symm, fun _ => (List.append_nil _).symm, fun _ _ => rfl, rfl, rfl, rfl, rfl, rfl⟩

theorem State.freesAt.trans {s t u : State} {p : Port} {a b : List Handle} (h : s.freesAt t p a) (k : t.freesAt u p b) :
    s.freesAt u p (a ++ b) where
  records := by rw [k.records, h.records, List.append_assoc]
  cells hn := by
    obtain ⟨na, nb, ne⟩ := List.nodup_append.mp hn
    have same : b.flatMap (fun x => (t.record x).cells) = b.flatMap (fun x => (s.record x).cells) :=
      List.flatMap_congr fun x hx => by rw [h.keeps x fun ha => ne x ha x hx rfl]
    rw [k.cells nb, h.cells na, same, List.flatMap_append, List.append_assoc]
  keeps x hx := by
    rw [List.mem_append, not_or] at hx
    exact (k.keeps x hx.2).trans (h.keeps x hx.1)
  memory := k.memory.trans h.memory
  presentation := k.presentation.trans h.presentation
  others := k.others.trans h.others
  counters := by rw [k.counters, h.counters]
  groups := k.groups.trans h.groups

theorem opposite_ne (p : Port) : p.opposite ≠ p := by cases p <;> exact fun h => nomatch h

/-- Freeing records for a flush leaves every scheduler alone (R126). -/
theorem flushRecords_sched (p r : Port) (q : QueueName) :
    ∀ (hs : List Handle) (s : State), (flushRecords p q hs s).sched r = s.sched r := by
  intro hs
  induction hs with
  | nil => exact fun _ => rfl
  | cons h hs ih => exact fun s => ih _

/-- Freeing the records of a queue for a flush (R126). -/
theorem flushRecords_frees (p : Port) (q : QueueName) :
    ∀ (hs : List Handle) (s : State), s.freesAt (flushRecords p q hs s) p hs := by
  intro hs
  induction hs with
  | nil => exact fun s => .refl s p
  | cons h hs ih =>
    intro s
    refine State.freesAt.trans (a := [h])
      (t := (freeRecord h s).countQueue p q (fun c => { c with flushed := Count.up c.flushed })) ?_ (ih _)
    exact ⟨rfl, fun _ => by simp, fun x hx => (record_freeRecord s h x).trans (if_neg (by simpa using hx)), rfl, rfl, rfl, rfl, by
      cases p <;> rfl⟩

theorem flushQueue_frees (p : Port) (q : QueueName) (s : State) :
    s.freesAt (flushQueue p q s) p (s.queue p q).records := by
  have h := flushRecords_frees p q (s.queue p q).records s
  refine ⟨h.records, h.cells, h.keeps, h.memory, ?_, ?_, h.counters, h.groups⟩
  · rw [flushQueue, State.sched_setQueue, if_pos rfl]
    exact h.presentation
  · rw [flushQueue, State.sched_setQueue, if_neg (opposite_ne p)]
    exact h.others

/-- A flush leaves the transmitter alone and empties its queue alone (R126). -/
theorem flushQueue_queue (p : Port) (q u : QueueName) (s : State) :
    (flushQueue p q s).queue p u = (if u = q then Queue.empty else s.queue p u)
      ∧ ((flushQueue p q s).sched p).inFlight = (s.sched p).inFlight := by
  constructor
  · rw [flushQueue, State.queue_setQueue]
    simp only [true_and, State.queue, flushRecords_sched]
  · rw [flushQueue, State.sched_setQueue, if_pos rfl, flushRecords_sched]

/-- The flush of the queues of a list, one after another (R126). -/
theorem flushQueues_frees (p : Port) : ∀ (qs : List QueueName) (s : State), qs.Nodup →
    s.freesAt (qs.foldl (fun s q => flushQueue p q s) s) p (qs.flatMap (fun q => (s.queue p q).records))
      ∧ (∀ u, (qs.foldl (fun s q => flushQueue p q s) s).queue p u = if u ∈ qs then Queue.empty else s.queue p u)
      ∧ ((qs.foldl (fun s q => flushQueue p q s) s).sched p).inFlight = (s.sched p).inFlight := by
  intro qs
  induction qs with
  | nil => exact fun s _ => ⟨.refl s p, fun u => (if_neg (List.not_mem_nil)).symm, rfl⟩
  | cons q qs ih =>
    intro s hn
    obtain ⟨hq, hn⟩ := List.nodup_cons.mp hn
    obtain ⟨f, e, i⟩ := ih (flushQueue p q s) hn
    have keep : ∀ u ∈ qs, (flushQueue p q s).queue p u = s.queue p u := fun u hu => by
      rw [(flushQueue_queue p q u s).1, if_neg (fun h : u = q => hq (h ▸ hu))]
    refine ⟨?_, fun u => ?_, i.trans (flushQueue_queue p q 0 s).2⟩
    · rw [List.flatMap_congr fun u hu => by rw [keep u hu]] at f
      exact (flushQueue_frees p q s).trans f
    · rw [List.foldl_cons, e u, (flushQueue_queue p q u s).1]
      by_cases h : u = q
      · simp [h]
      · simp [h]

/-- The flush of a port: every queue is empty, the records are freed in the order M, 7 to 0, each queue from its front (R126). -/
theorem flushPort_frees (p : Port) (s : State) :
    s.freesAt (flushPort p s) p (s.flushOrder p) ∧ (∀ q, (flushPort p s).queue p q = Queue.empty)
      ∧ ((flushPort p s).sched p).inFlight = (s.sched p).inFlight := by
  obtain ⟨f, e, i⟩ := flushQueues_frees p priorityOrder s (by decide)
  exact ⟨f, fun q => (e q).trans (if_pos (by revert q; decide)), i⟩

theorem inFlightRecord_nodup (p : Port) (s : State) : (s.inFlightRecord p).Nodup := by
  unfold State.inFlightRecord
  cases (s.sched p).inFlight <;> simp

/-- In a sound pool, the records that an abort and a flush free are distinct (R118). -/
theorem State.poolWhole.freed_nodup {s : State} (h : s.poolWhole) :
    (s.inFlightRecord .a ++ s.inFlightRecord .b ++ s.flushOrder .a ++ s.flushOrder .b).Nodup := by
  have held : s.heldRecords.Nodup :=
    (List.nodup_append.mp (h.1.nodup_iff.mpr (List.nodup_finRange 256))).2.1
  have order : ∀ p, (s.flushOrder p).Perm (s.queuedRecords p) := fun p => by
    have e : (s.sched p).queues.toList = (List.finRange 9).map (fun q => (s.sched p).queues[q]) := by
      apply List.ext_getElem <;> simp
    rw [State.queuedRecords, e, List.flatMap_map]
    exact List.Perm.flatMap_right _ (by decide)
  refine (List.Perm.nodup_iff ?_).mp held
  unfold State.heldRecords
  refine (List.Perm.append_right _ (List.Perm.append_right _
    (List.Perm.append (order .a).symm (order .b).symm))).trans ?_
  rw [List.append_assoc, List.append_assoc _ (s.flushOrder .a)]
  exact List.perm_append_comm

/-- A transmitter that is idle is left so. -/
theorem set_idle (p : Port) (s : State) (h : (s.sched p).inFlight = none) :
    s.egress.set p { s.sched p with inFlight := none } = s.egress := by
  rw [show ({ s.sched p with inFlight := none } : Egress) = s.sched p by rw [← h]]
  exact Pair.set_get _ _

/-- An abort frees the in-flight record, if there is one, and makes the transmitter idle (R75). -/
theorem abortTransmission_frees (p : Port) (s : State) :
    s.freesAt (abortTransmission p s) p (s.inFlightRecord p)
      ∧ (abortTransmission p s).egress = s.egress.set p { s.sched p with inFlight := none } := by
  unfold abortTransmission State.inFlightRecord
  cases h : (s.sched p).inFlight with
  | none => exact ⟨.refl s p, (set_idle p s h).symm⟩
  | some f =>
    exact ⟨⟨rfl, fun _ => by simp,
      fun x hx => (record_freeRecord s f.record x).trans (if_neg (by simpa using hx)),
      rfl, by cases p <;> rfl, by cases p <;> rfl, rfl, rfl⟩, rfl⟩

/-- An abort at a TRAFFIC reset counts at the record's own queue, which a sound record has at this port (R126). -/
theorem trafficAbort_same (p : Port) (s : State) :
    s.sameButTraffic (trafficAbort p s)
      ∧ (trafficAbort p s).pool.freeRecords = s.pool.freeRecords ++ s.inFlightRecord p
      ∧ (trafficAbort p s).pool.freeCells = s.pool.freeCells ++ (s.inFlightRecord p).flatMap (fun h => (s.record h).cells)
      ∧ (∀ h, h ∉ s.inFlightRecord p → (trafficAbort p s).record h = s.record h)
      ∧ (trafficAbort p s).pool.memory = s.pool.memory
      ∧ (trafficAbort p s).egress = s.egress.set p { s.sched p with inFlight := none }
      ∧ (trafficAbort p s).counters = { s.counters with queues := (trafficAbort p s).counters.queues } := by
  unfold trafficAbort
  cases h : (s.sched p).inFlight with
  | none =>
    exact ⟨rfl, by simp [State.inFlightRecord, h], by simp [State.inFlightRecord, h], fun _ _ => rfl, rfl, (set_idle p s h).symm, rfl⟩
  | some f =>
    simp only
    generalize hu : s.countQueue _ _ _ = u
    have e : s.sameButTraffic u := by rw [← hu]; rfl
    have hp : u.pool = s.pool := by rw [← hu]; rfl
    have he : u.egress = s.egress := by rw [← hu]; rfl
    have hc : u.counters = { s.counters with queues := u.counters.queues } := by rw [← hu]; rfl
    have hs : ∀ r, u.sched r = s.sched r := fun r => by rw [State.sched, he]; rfl
    obtain ⟨a, b⟩ := abortTransmission_frees p u
    have hi : u.inFlightRecord p = s.inFlightRecord p := by rw [State.inFlightRecord, State.inFlightRecord, hs]
    have hr : ∀ x, u.record x = s.record x := fun x => by rw [State.record, hp]; rfl
    refine ⟨e.trans (abortTransmission_same p u), ?_, ?_, ?_, ?_, ?_, ?_⟩
    · rw [a.records, hp, hi]
    · rw [a.cells (hi ▸ inFlightRecord_nodup p s), hp, hi, List.flatMap_congr fun x _ => by rw [hr x]]
    · exact fun x hx => (a.keeps x (hi ▸ hx)).trans (hr x)
    · rw [a.memory, hp]
    · rw [b, he, hs]
    · rw [a.counters, hc]

end Sys2Proof.Machine
end

