-- ==== Sys2Proof/Laws/Memory.lean ====
section
/-! SUPPORT. The cells' memory: every operation keeps the canonical form, a write is read back, and a stored frame is loaded whole. -/

namespace Sys2Proof.Machine

/-! ### The canonical form -/

theorem Memory.mem_listed : ∀ (bytes : List Byte) (a : Nat) (c : Host.Cell), c ∈ Memory.listed a bytes →
    a ≤ c.1 ∧ c.1 < a + bytes.length ∧ c.2 ≠ Memory.unlisted := by
  intro bytes
  induction bytes with
  | nil => intro a c h; cases h
  | cons b bs ih =>
    intro a c h
    unfold Memory.listed at h
    split at h
    · have := ih (a + 1) c h
      refine ⟨by omega, ?_, this.2.2⟩
      simp only [List.length_cons]
      omega
    · rename_i hb
      rcases List.mem_cons.mp h with h | h
      · subst h
        exact ⟨Nat.le_refl _, by simp, hb⟩
      · have := ih (a + 1) c h
        refine ⟨by omega, ?_, this.2.2⟩
        simp only [List.length_cons]
        omega

theorem Memory.listed_pairwise : ∀ (bytes : List Byte) (a : Nat),
    (Memory.listed a bytes).Pairwise (fun x y => x.1 < y.1) := by
  intro bytes
  induction bytes with
  | nil => intro a; exact List.Pairwise.nil
  | cons b bs ih =>
    intro a
    unfold Memory.listed
    split
    · exact ih (a + 1)
    · refine List.Pairwise.cons (fun c hc => ?_) (ih (a + 1))
      have := Memory.mem_listed bs (a + 1) c hc
      simp only
      omega

/-- A write keeps the canonical form. -/
theorem Memory.write_wf (m : Memory) (a : Nat) (bytes : List Byte) (h : m.wf) : (m.write a bytes).wf := by
  constructor
  · unfold Memory.write
    rw [List.pairwise_append, List.pairwise_append]
    refine ⟨⟨h.1.filter _, Memory.listed_pairwise bytes a, ?_⟩, h.1.filter _, ?_⟩
    · intro x hx y hy
      have h1 := (List.mem_filter.mp hx).2
      have h2 := Memory.mem_listed bytes a y hy
      simp only [decide_eq_true_eq] at h1
      omega
    · intro x hx y hy
      have h2 := (List.mem_filter.mp hy).2
      simp only [decide_eq_true_eq] at h2
      rcases List.mem_append.mp hx with hx | hx
      · have h1 := (List.mem_filter.mp hx).2
        simp only [decide_eq_true_eq] at h1
        omega
      · have := Memory.mem_listed bytes a x hx
        omega
  · intro c hc
    unfold Memory.write at hc
    rcases List.mem_append.mp hc with hc | hc
    · rcases List.mem_append.mp hc with hc | hc
      · exact h.2 c (List.mem_filter.mp hc).1
      · exact (Memory.mem_listed bytes a c hc).2.2
    · exact h.2 c (List.mem_filter.mp hc).1

/-- Storing a frame keeps the canonical form. -/
theorem storeFrame_wf : ∀ (cells : List CellNo) (bytes : List Byte) (m : Memory), m.wf → (storeFrame m cells bytes).wf := by
  intro cells
  induction cells with
  | nil => exact fun _ _ h => h
  | cons c cs ih => exact fun bytes m h => ih _ _ (Memory.write_wf m _ _ h)

/-- The memory of the reset state has the canonical form. -/
theorem reset_memory_wf : State.reset.pool.memory.wf := ⟨List.Pairwise.nil, fun _ h => by cases h⟩

/-! ### Reading back -/

theorem Memory.find_listed : ∀ (bytes : List Byte) (a i : Nat),
    (match (Memory.listed a bytes).find? (fun c => c.1 == i) with
      | some c => c.2
      | none => Memory.unlisted) = if a ≤ i ∧ i < a + bytes.length then bytes.getD (i - a) 0 else Memory.unlisted := by
  intro bytes
  induction bytes with
  | nil => intro a i; simp [Memory.listed]
  | cons b bs ih =>
    intro a i
    have ih' := ih (a + 1) i
    by_cases hi : i = a
    · subst hi
      have hnone : (Memory.listed (i + 1) bs).find? (fun c => c.1 == i) = none := by
        rw [List.find?_eq_none]
        intro c hc
        have := Memory.mem_listed bs (i + 1) c hc
        simp only [beq_iff_eq]
        omega
      unfold Memory.listed
      by_cases hb : b = Memory.unlisted
      · simp [hb, hnone, Memory.unlisted]
      · simp [hb]
    · have hlist : (Memory.listed a (b :: bs)).find? (fun c => c.1 == i)
          = (Memory.listed (a + 1) bs).find? (fun c => c.1 == i) := by
        conv_lhs => unfold Memory.listed
        split
        · rfl
        · have : ¬ a = i := fun h => hi h.symm
          simp [this]
      rw [hlist, ih']
      by_cases hr : a + 1 ≤ i ∧ i < a + 1 + bs.length
      · have h2 : a ≤ i ∧ i < a + (b :: bs).length := by simp only [List.length_cons]; omega
        rw [if_pos hr, if_pos h2]
        have : i - a = (i - (a + 1)) + 1 := by omega
        rw [this]
        rfl
      · have h2 : ¬(a ≤ i ∧ i < a + (b :: bs).length) := by simp only [List.length_cons]; omega
        rw [if_neg hr, if_neg h2]

theorem Memory.find_filter (m : Memory) (i : Nat) (keep : Nat → Bool) :
    (m.filter (fun c => keep c.1)).find? (fun c => c.1 == i)
      = if keep i then m.find? (fun c => c.1 == i) else none := by
  induction m with
  | nil => simp
  | cons x xs ih =>
    by_cases hx : x.1 = i
    · subst hx
      by_cases hk : keep x.1 = true
      · simp [hk]
      · simp only [Bool.not_eq_true] at hk
        simp [hk] at ih ⊢
        exact ih
    · by_cases hk : keep x.1 = true
      · simp [hk, hx, ih]
      · simp [hk, hx, ih]

/-- Reading after a write: the byte written at each address written, what was there at each other. -/
theorem Memory.read_write (m : Memory) (a i : Nat) (bytes : List Byte) :
    (m.write a bytes).read i = if a ≤ i ∧ i < a + bytes.length then bytes.getD (i - a) 0 else m.read i := by
  have h1 := Memory.find_filter m i (fun x => decide (x < a))
  have h2 := Memory.find_filter m i (fun x => decide (a + bytes.length ≤ x))
  have h3 := Memory.find_listed bytes a i
  unfold Memory.read Memory.write
  rw [List.find?_append, List.find?_append, h1, h2]
  by_cases c1 : i < a
  · have n1 : ¬(a ≤ i ∧ i < a + bytes.length) := by omega
    have n2 : ¬(a + bytes.length ≤ i) := by omega
    have hn : (Memory.listed a bytes).find? (fun c => c.1 == i) = none := by
      rw [List.find?_eq_none]
      intro c hc
      have := Memory.mem_listed bytes a c hc
      simp only [beq_iff_eq]
      omega
    simp [c1, n1, n2, hn]
  · by_cases c2 : a + bytes.length ≤ i
    · have n1 : ¬(a ≤ i ∧ i < a + bytes.length) := by omega
      have hn : (Memory.listed a bytes).find? (fun c => c.1 == i) = none := by
        rw [List.find?_eq_none]
        intro c hc
        have := Memory.mem_listed bytes a c hc
        simp only [beq_iff_eq]
        omega
      simp [c1, c2, n1, hn]
    · have p1 : a ≤ i ∧ i < a + bytes.length := by omega
      rw [if_pos p1] at h3 ⊢
      simp [c1, c2]
      exact h3

/-- A frame's store leaves every byte outside the cells alone. -/
theorem storeFrame_read_other : ∀ (cells : List CellNo) (bytes : List Byte) (m : Memory) (i : Nat),
    (∀ c ∈ cells, ¬(cellAddress c ≤ i ∧ i < cellAddress c + 128)) → (storeFrame m cells bytes).read i = m.read i := by
  intro cells
  induction cells with
  | nil => exact fun _ _ _ _ => rfl
  | cons c cs ih =>
    intro bytes m i h
    unfold storeFrame
    rw [ih _ _ i (fun c' hc' => h c' (List.mem_cons_of_mem c hc')), Memory.read_write]
    have hc := h c List.mem_cons_self
    have : (bytes.take Config.cellSize).length ≤ 128 := by
      rw [List.length_take]
      exact Nat.min_le_left _ _
    rw [if_neg]
    omega

theorem cellAddress_apart (c d : CellNo) (i : Nat) (h : c ≠ d) (hi : i < 128) :
    ¬(cellAddress d ≤ cellAddress c + i ∧ cellAddress c + i < cellAddress d + 128) := by
  have : c.val ≠ d.val := fun e => h (Fin.ext e)
  unfold cellAddress Config.cellSize
  omega

/-- A frame stored in distinct cells is loaded whole from them (R117). -/
theorem loadFrame_storeFrame : ∀ (cells : List CellNo) (bytes : List Byte) (m : Memory), cells.Nodup →
    bytes.length ≤ 128 * cells.length → loadFrame (storeFrame m cells bytes) cells bytes.length = bytes := by
  intro cells
  induction cells with
  | nil =>
    intro bytes m _ h
    have : bytes = [] := List.length_eq_zero_iff.mp (by simpa using h)
    subst this
    rfl
  | cons c cs ih =>
    intro bytes m hn h
    have hcn := List.nodup_cons.mp hn
    have hlen : (bytes.drop 128).length ≤ 128 * cs.length := by
      simp only [List.length_drop, List.length_cons] at h ⊢
      omega
    have htail := ih (bytes.drop 128) (m.write (cellAddress c) (bytes.take 128)) hcn.2 hlen
    have hcell : (List.range 128).map (fun i => (storeFrame m (c :: cs) bytes).read (cellAddress c + i))
        = (List.range 128).map (fun i => if i < bytes.length then bytes.getD i 0 else m.read (cellAddress c + i)) := by
      apply List.map_congr_left
      intro i hi
      have hi := List.mem_range.mp hi
      show (storeFrame (m.write (cellAddress c) (bytes.take 128)) cs (bytes.drop 128)).read _ = _
      rw [storeFrame_read_other cs _ _ _ (fun d hd => cellAddress_apart c d i (fun e => hcn.1 (e ▸ hd)) hi),
        Memory.read_write]
      have hmin : (bytes.take 128).length = min 128 bytes.length := List.length_take
      by_cases hb : i < bytes.length
      · rw [if_pos (by omega), if_pos hb]
        simp [List.getD_eq_getElem?_getD, hi]
      · rw [if_neg (by omega), if_neg hb]
    have hsplit : loadFrame (storeFrame m (c :: cs) bytes) (c :: cs) bytes.length
        = (((List.range 128).map (fun i => (storeFrame m (c :: cs) bytes).read (cellAddress c + i)))
            ++ cs.flatMap (fun d => (List.range 128).map
              (fun i => (storeFrame m (c :: cs) bytes).read (cellAddress d + i)))).take bytes.length := rfl
    rw [hsplit, hcell, List.take_append]
    simp only [List.length_map, List.length_range]
    have hrest : (cs.flatMap (fun d => (List.range 128).map
        (fun i => (storeFrame m (c :: cs) bytes).read (cellAddress d + i)))).take (bytes.length - 128)
        = bytes.drop 128 := by
      have := htail
      unfold loadFrame at this
      rw [List.length_drop] at this
      exact this
    rw [hrest]
    have hhead : ((List.range 128).map
        (fun i => if i < bytes.length then bytes.getD i 0 else m.read (cellAddress c + i))).take bytes.length
        = bytes.take 128 := by
      apply List.ext_getElem
      · simp [List.length_take]
        omega
      · intro i h1 h2
        have : i < bytes.length := by
          simp only [List.length_take] at h2
          omega
        simp [this, List.getD_eq_getElem?_getD]
    rw [hhead, List.take_append_drop]

end Sys2Proof.Machine
end

