-- ==== Sys2Proof/Laws/Notices.lean ====
section
/-! SUPPORT. Which notices an event raises, with their cycle number (R19, R171): the laws of `State.raises`, and what the shared operations
raise. -/

namespace Sys2Proof.Machine

/-- An event that first moves on without a notice raises what the rest of it raises. -/
theorem State.raises.before {s u t : State} {c : Count} {ds : List NoticeDetail} (k : s.sameButCadence u)
    (n : u.notices = s.notices) (h : u.raises c ds t) : s.raises c ds t := by
  cases ds with
  | nil => exact h.trans n
  | cons d ds =>
    obtain ⟨v, hv, nv, r⟩ := h
    exact ⟨v, k.trans hv, nv.trans n, r⟩

/-- An event that moves on without a notice at its end raises no more. -/
theorem State.raises.after {c : Count} : ∀ {ds : List NoticeDetail} {s t v : State}, s.raises c ds t →
    v.notices = t.notices → s.raises c ds v
  | [], _, _, _, h, n => n.trans h
  | _ :: _, _, _, _, ⟨u, hu, nu, r⟩, n => ⟨u, hu, nu, r.after n⟩

theorem State.sameButCadence.symm {s t : State} (h : s.sameButCadence t) : t.sameButCadence s := by
  unfold State.sameButCadence at *
  rw [h]

theorem raiseNotice_cadence (d : NoticeDetail) (c : Count) (s : State) : s.sameButCadence (raiseNotice d c s) :=
  (raiseNotice_same d c s).toWalk.toCadence

/-- Two parts of an event raise their notices one after the other. -/
theorem State.raises.append {c : Count} : ∀ {ds es : List NoticeDetail} {s t v : State}, s.raises c ds t →
    s.sameButCadence t → t.raises c es v → s.raises c (ds ++ es) v
  | [], _, _, _, _, h, k, r => r.before k h
  | d :: _, _, _, _, _, ⟨u, hu, nu, h⟩, k, r =>
    ⟨u, hu, nu, h.append ((hu.trans (raiseNotice_cadence d c u)).symm.trans k) r⟩

/-- One notice. -/
theorem raises_raiseNotice (d : NoticeDetail) (c : Count) (s : State) : s.raises c [d] (raiseNotice d c s) :=
  ⟨s, .refl s, rfl, rfl⟩

/-- A pending commit that is applied raises COMMIT_DONE, with the bank that becomes active (R165, R171). -/
theorem applyPendingCommit_raises (o : Occasion) (c : Count) (s : State) :
    s.raises c (if s.programs.commitPending then [.commitDone s.programs.staged o] else []) (applyPendingCommit o c s) := by
  unfold applyPendingCommit
  split
  · exact ⟨{ s with programs := { s.programs with active := s.programs.staged, commitPending := false } }, rfl, rfl, rfl⟩
  · rfl

/-- The end of a running cycle raises nothing (R45). -/
theorem endCycle_notices (s : State) : (endCycle s).notices = s.notices := by
  unfold endCycle
  simp only
  split <;> exact (leaveEntry_fields s).2.2.2.2.2.1

/-- A cycle start raises the COMMIT_DONE of a pending commit (R46, step 1). -/
theorem startCycle_raises (origin : Time) (ref : Nat) (s : State) :
    s.raises (nextCycle s.sequencer) (if s.programs.commitPending then [.commitDone s.programs.staged .cycleStart] else [])
      (startCycle origin ref s) := by
  refine (applyPendingCommit_raises .cycleStart (nextCycle s.sequencer) s).after ?_
  unfold startCycle
  rw [(startPulse_fields _).2.2.2.2.2.2, presentRunning, (presentBoth_fields _ _).2.2.2.2.2.2.2.2.2.2.1]
  rfl

/-- The cycle number that the tracker's notices carry at a boundary is the one the boundary leaves (R19, R44). -/
theorem cycleAfterBoundary_eq (s : State) : cycleAfterBoundary s.sequencer = s.boundaryCycle := by
  unfold cycleAfterBoundary State.boundaryCycle nextCycle SequencerState.startsCycle
  cases h : s.sequencer.state <;> simp

/-- What a boundary raises (R44, R46). -/
theorem takeBoundary_raises (origin : Time) (ref : Nat) (s : State) :
    s.raises s.boundaryCycle s.boundaryNotices (takeBoundary origin ref s) := by
  unfold takeBoundary State.boundaryCycle State.boundaryNotices SequencerState.startsCycle
  cases h : s.sequencer.state
  · rfl
  · simpa [nextCycle, h] using startCycle_raises origin ref s
  · simpa [nextCycle, h] using
      (startCycle_raises origin ref (endCycle s)).before (endCycle_walk s).toCadence (endCycle_notices s)
  · rfl
  · simpa [nextCycle, h] using startCycle_raises origin ref s

/-- The cycle number of LOCK_LOST is the one the lock loss leaves (R59). -/
theorem cycleAfterLockLoss_eq (s : State) : cycleAfterLockLoss s.sequencer = s.lossCycle := rfl

/-- The sequencer, the programs and the notices of the sequencer's part in a lock loss (R59, R167, R171). -/
theorem sequencerLockLoss_raises (s : State) :
    (sequencerLockLoss s).sequencer = s.lossSequencer ∧ (sequencerLockLoss s).programs = s.lossPrograms
      ∧ s.raises s.lossCycle
        (if s.sequencer.state.follows ∧ s.programs.commitPending then [.commitDone s.programs.staged .freeEntry] else [])
        (sequencerLockLoss s) := by
  unfold sequencerLockLoss State.lossSequencer State.lossPrograms State.lossCycle
  by_cases hf : s.sequencer.state.follows = true
  · let v : State := { leaveEntry s with sequencer := { (leaveEntry s).sequencer with state := .free, cycle := 0 } }
    have hv : s.sameButWalk (presentBoth (freePresentation v) v) :=
      (leaveEntry_walk s).trans (State.sameButWalk.trans (t := v) rfl (presentBoth_walk _ _))
    simp only [hf, true_and, if_true]
    refine ⟨by simp [freePresentation], by simp [ProgramStore.applied], State.raises.before hv.toCadence ?_ ?_⟩
    · simp [v]
    · simpa [v] using applyPendingCommit_raises .freeEntry 0 (presentBoth (freePresentation v) v)
  · simp [hf, State.raises]

/-- What a lock loss leaves of the sequencer and the programs, and what it raises (R16, R59, R167, R171). -/
theorem lockLoss_raises (cause : LossCause) (s : State) :
    (lockLoss cause s).sequencer = s.lossSequencer ∧ (lockLoss cause s).programs = s.lossPrograms
      ∧ s.raises s.lossCycle (s.lossNotices cause) (lockLoss cause s) := by
  let v := ((s.setTracker (s.tracker.cleared cause.stateAfter)).countTracker
    (fun c => { c with lockLosses := Count.up c.lockLosses }))
  let w := (raiseNotice (.lockLost cause) (cycleAfterLockLoss v.sequencer) v).setLock false
  have hs : w.sequencer = s.sequencer := by simp [w, v]
  have hp : w.programs = s.programs := by simp [w, v]
  have hc : w.config = s.config := by simp [w, v]
  obtain ⟨a, b, r⟩ := sequencerLockLoss_raises w
  refine ⟨a.trans ?_, b.trans ?_, v, rfl, rfl, ?_⟩
  · simp only [State.lossSequencer, hs, hc]
  · simp only [State.lossPrograms, hs, hp]
  · simp only [State.lossCycle, hs, hp] at r
    exact State.raises.before (u := w) rfl rfl r

/-- The tracker moves on without a notice and then delivers a boundary: what the event raises (R171). -/
theorem movedBoundary_raises (origin : Time) (ref : Nat) {s v : State} (k : s.sameButCadence v)
    (n : v.notices = s.notices) (q : v.sequencer = s.sequencer) (p : v.programs = s.programs) :
    s.raises s.boundaryCycle s.boundaryNotices (takeBoundary origin ref v) := by
  have h := takeBoundary_raises origin ref v
  rw [show v.boundaryCycle = s.boundaryCycle by simp [State.boundaryCycle, q],
    show v.boundaryNotices = s.boundaryNotices by simp [State.boundaryNotices, q, p]] at h
  exact h.before k n

/-- The tracker raises a notice and then delivers a boundary: what the event raises (R171). -/
theorem noticeThenBoundary_raises (d : NoticeDetail) (origin : Time) (ref : Nat) {s v : State} (k : s.sameButCadence v)
    (n : v.notices = s.notices) (q : v.sequencer = s.sequencer) (p : v.programs = s.programs) :
    s.raises s.boundaryCycle (d :: s.boundaryNotices)
      (takeBoundary origin ref (raiseNotice d (cycleAfterBoundary v.sequencer) v)) := by
  rw [q, cycleAfterBoundary_eq]
  have h := takeBoundary_raises origin ref (raiseNotice d s.boundaryCycle v)
  rw [show (raiseNotice d s.boundaryCycle v).boundaryCycle = s.boundaryCycle by simp [State.boundaryCycle, q],
    show (raiseNotice d s.boundaryCycle v).boundaryNotices = s.boundaryNotices by simp [State.boundaryNotices, q, p]] at h
  exact ⟨v, k, n, h⟩

/-- What the lock raises in ACQUIRING (R8, R19). -/
theorem acquireLock_raises (t : Time) (s : State) :
    s.raises s.boundaryCycle (.lockAcquired (meanOfNewest s.config.depth s.tracker.history) :: s.boundaryNotices)
      (acquireLock t s) :=
  noticeThenBoundary_raises _ _ _ (v := (s.setTracker _).setLock true) rfl rfl rfl rfl

/-- What a mark accepted in LOCKED or HOLDOVER raises (R11, R19). -/
theorem acceptMark_raises (t : Time) (ref : Nat) (s : State) :
    s.raises s.boundaryCycle
      ((if s.tracker.state = .holdover then [.lockRegained ((examineSpan t s).ref.getD ref)] else []) ++ s.boundaryNotices)
      (acceptMark t ref s) := by
  unfold acceptMark
  simp only
  split
  · exact noticeThenBoundary_raises _ _ _ (v := countAccepted (s.setTracker _)) rfl rfl rfl rfl
  · exact movedBoundary_raises _ _ (v := countAccepted (s.setTracker _)) rfl rfl rfl rfl

/-- What a missing mark raises while holdover carries it (R12, R19). -/
theorem carryCycle_raises (ref : Nat) (s : State) :
    s.raises s.boundaryCycle
      ((if s.tracker.state = .locked then [.holdoverEntered (Time.plus s.tracker.boundary ref)] else [])
        ++ s.boundaryNotices) (carryCycle ref s) := by
  unfold carryCycle
  simp only
  split
  · exact noticeThenBoundary_raises _ _ _ (v := s.setTracker _) rfl rfl rfl rfl
  · exact movedBoundary_raises _ _ (v := s.setTracker _) rfl rfl rfl rfl

end Sys2Proof.Machine
end

