-- ==== Sys2Proof/Laws/Requests.lean ====
section
/-! SUPPORT. The request path: what a request-taken event comes to, once, for the proofs that cite it. -/

namespace Sys2Proof.Machine

/-! ### The response -/

theorem respond_same (r : Request) (a : Answer) (s : State) : s.sameButTraffic (respond r a s) :=
  (offerResponse_same r.port _ s).trans rfl

@[simp] theorem respond_fields (r : Request) (a : Answer) (s : State) :
    (respond r a s).time = s.time ∧ (respond r a s).pins = s.pins ∧ (respond r a s).straps = s.straps
      ∧ (respond r a s).ports = s.ports ∧ (respond r a s).classifier = s.classifier
      ∧ (respond r a s).tracker = s.tracker ∧ (respond r a s).sequencer = s.sequencer
      ∧ (respond r a s).programs = s.programs ∧ (respond r a s).agent = s.agent ∧ (respond r a s).config = s.config
      ∧ (respond r a s).notices = s.notices ∧ (respond r a s).tieCount = s.tieCount ∧ (respond r a s).handed = s.handed
      ∧ (respond r a s).pending = s.pending := (respond_same r a s).fields

theorem TrafficKeeps.respond {P : State → Prop} (k : TrafficKeeps P) (r : Request) (a : Answer) (s : State) (h : P s) :
    P (Machine.respond r a s) := by
  unfold Machine.respond countAnswered
  exact k.agent _ _ (k.offerResponse r.port _ s h)

@[simp] theorem takeSlot_fields (rest : List Slot) (s : State) :
    (takeSlot rest s).agent = { s.agent with fifo := rest, serviced := true } ∧ (takeSlot rest s).time = s.time
      ∧ (takeSlot rest s).pins = s.pins ∧ (takeSlot rest s).straps = s.straps ∧ (takeSlot rest s).ports = s.ports
      ∧ (takeSlot rest s).egress = s.egress ∧ (takeSlot rest s).pool = s.pool
      ∧ (takeSlot rest s).classifier = s.classifier ∧ (takeSlot rest s).tracker = s.tracker
      ∧ (takeSlot rest s).sequencer = s.sequencer ∧ (takeSlot rest s).programs = s.programs
      ∧ (takeSlot rest s).config = s.config ∧ (takeSlot rest s).counters = s.counters
      ∧ (takeSlot rest s).notices = s.notices ∧ (takeSlot rest s).tieCount = s.tieCount ∧ (takeSlot rest s).handed = s.handed
      ∧ (takeSlot rest s).pending = s.pending :=
  ⟨rfl, rfl, rfl, rfl, rfl, rfl, rfl, rfl, rfl, rfl, rfl, rfl, rfl, rfl, rfl, rfl, rfl⟩

/-- The state in which the owner's request runs differs from the one before in the agent alone (R132, R151). -/
@[simp] theorem State.owned_fields (s : State) (rest : List Slot) :
    (s.owned rest).agent =
        { s.agent with
          fifo := rest
          serviced := true
          session := { s.agent.session with
            leaseExpiry := leaseDue s.agent.session.leaseMs s
            leaseWait := some (leaseDue s.agent.session.leaseMs s) } }
      ∧ (s.owned rest).time = s.time ∧ (s.owned rest).pins = s.pins ∧ (s.owned rest).straps = s.straps
      ∧ (s.owned rest).ports = s.ports ∧ (s.owned rest).egress = s.egress ∧ (s.owned rest).pool = s.pool
      ∧ (s.owned rest).classifier = s.classifier ∧ (s.owned rest).tracker = s.tracker
      ∧ (s.owned rest).sequencer = s.sequencer ∧ (s.owned rest).programs = s.programs
      ∧ (s.owned rest).config = s.config ∧ (s.owned rest).counters = s.counters
      ∧ (s.owned rest).notices = s.notices ∧ (s.owned rest).tieCount = s.tieCount ∧ (s.owned rest).handed = s.handed
      ∧ (s.owned rest).pending = s.pending :=
  ⟨rfl, rfl, rfl, rfl, rfl, rfl, rfl, rfl, rfl, rfl, rfl, rfl, rfl, rfl, rfl, rfl, rfl⟩

/-! ### Taking a request -/

theorem takeRequest_serves {s : State} {row : Instr} {slot : Slot} {rest : List Slot} (h : s.serves row slot rest)
    (handle : Slot → State → State) : takeRequest row handle s = handle slot (takeSlot rest s) := by
  obtain ⟨h1, h2, h3, _⟩ := h
  simp [takeRequest, h1, h2, h3]

theorem serveRequest_passed (judge : Request → State → Verdict) (r : Request) (s : State)
    (h : headerRefusal r = none) : serveRequest judge r s = settleVerdict r (judge r s) := by
  simp [serveRequest, h]

/-- A request that is not owner-only, executed (R137). -/
theorem takeOpen_answer {s u : State} {row : Instr} {slot : Slot} {rest : List Slot} {a : Answer}
    {run : Request → State → Verdict} (h : s.serves row slot rest)
    (hr : run (requestOf slot) (takeSlot rest s) = .answer u a) :
    takeOpen row run s = .next (respond (requestOf slot) a u) := by
  unfold takeOpen
  rw [takeRequest_serves h, serveRequest_passed _ _ _ h.2.2.2, hr]
  rfl

theorem ownersNext_judge {s : State} {r : Request} {rest : List Slot} (run : Request → State → Verdict)
    (h : s.ownersNext r) : judgeOwner run r (takeSlot rest s) =
      match run r (s.owned rest) with
      | .answer s2 a => .answer (recordRequest r a s2) a
      | .closing s2 a => .answer (endSession (recordRequest r a s2)) a
      | .silent s2 => .silent s2 := by
  have h1 : ownerCheck r (takeSlot rest s) = true := h.1
  unfold judgeOwner
  rw [if_pos h1]
  have h2 : r.sequence = (restartLease (takeSlot rest s)).agent.session.lastSequence + 1 := h.2
  simp only
  rw [if_pos h2]
  rfl

/-- An owner's request in sequence, executed and recorded (R136). -/
theorem takeOwned_answer {s u : State} {row : Instr} {slot : Slot} {rest : List Slot} {a : Answer}
    {run : Request → State → Verdict} (h : s.serves row slot rest) (ho : s.ownersNext (requestOf slot))
    (hr : run (requestOf slot) (s.owned rest) = .answer u a) :
    takeOwned row run s = .next (respond (requestOf slot) a (recordRequest (requestOf slot) a u)) := by
  unfold takeOwned
  rw [takeRequest_serves h, serveRequest_passed _ _ _ h.2.2.2, ownersNext_judge run ho, hr]
  rfl

/-- An owner's request in sequence that ends the session (R155). -/
theorem takeOwned_closing {s u : State} {row : Instr} {slot : Slot} {rest : List Slot} {a : Answer}
    {run : Request → State → Verdict} (h : s.serves row slot rest) (ho : s.ownersNext (requestOf slot))
    (hr : run (requestOf slot) (s.owned rest) = .closing u a) :
    takeOwned row run s = .next (respond (requestOf slot) a (endSession (recordRequest (requestOf slot) a u))) := by
  unfold takeOwned
  rw [takeRequest_serves h, serveRequest_passed _ _ _ h.2.2.2, ownersNext_judge run ho, hr]
  rfl

/-- An owner's request in sequence that has no response (R147). -/
theorem takeOwned_silent {s u : State} {row : Instr} {slot : Slot} {rest : List Slot}
    {run : Request → State → Verdict} (h : s.serves row slot rest) (ho : s.ownersNext (requestOf slot))
    (hr : run (requestOf slot) (s.owned rest) = .silent u) : takeOwned row run s = .next u := by
  unfold takeOwned
  rw [takeRequest_serves h, serveRequest_passed _ _ _ h.2.2.2, ownersNext_judge run ho, hr]
  rfl

/-- An owner-only request from another sender (R135). -/
theorem takeOwned_notOwner {s : State} {row : Instr} {slot : Slot} {rest : List Slot}
    {run : Request → State → Verdict} (h : s.serves row slot rest) (ho : ownerCheck (requestOf slot) s = false) :
    takeOwned row run s = .next (respond (requestOf slot) (Answer.refuse .notOwner) (takeSlot rest s)) := by
  have h1 : ¬ ownerCheck (requestOf slot) (takeSlot rest s) = true := by
    rw [show ownerCheck (requestOf slot) (takeSlot rest s) = ownerCheck (requestOf slot) s from rfl, ho]
    exact Bool.false_ne_true
  unfold takeOwned
  rw [takeRequest_serves h, serveRequest_passed _ _ _ h.2.2.2]
  unfold judgeOwner
  rw [if_neg h1]
  rfl

/-- The owner's request out of sequence: a duplicate, or a gap (R136). -/
theorem takeOwned_outOfSequence {s : State} {row : Instr} {slot : Slot} {rest : List Slot}
    {run : Request → State → Verdict} (h : s.serves row slot rest) (ho : ownerCheck (requestOf slot) s = true)
    (hs : (requestOf slot).sequence ≠ s.agent.session.lastSequence + 1) :
    takeOwned row run s = .next (respond (requestOf slot)
      (match duplicateOf (requestOf slot) s with
        | some replay => ⟨replay.status, flagDuplicate, []⟩
        | none => ⟨.sequenceGap, 0, bigEndian 2 (s.agent.session.lastSequence + 1).toNat⟩) (s.owned rest)) := by
  have h1 : ownerCheck (requestOf slot) (takeSlot rest s) = true := ho
  have h2 : ¬ (requestOf slot).sequence = (restartLease (takeSlot rest s)).agent.session.lastSequence + 1 := hs
  have h3 : duplicateOf (requestOf slot) (restartLease (takeSlot rest s)) = duplicateOf (requestOf slot) s := rfl
  unfold takeOwned
  rw [takeRequest_serves h, serveRequest_passed _ _ _ h.2.2.2]
  unfold judgeOwner
  rw [if_pos h1]
  simp only
  rw [if_neg h2, h3]
  cases duplicateOf (requestOf slot) s <;> rfl

/-! ### The rows of requests -/

theorem writeConfigRow_mem (args : List Byte) : writeConfigRow args ∈ ownerOnlyRows := by
  unfold writeConfigRow
  split
  · decide
  · split <;> (try split) <;> (try split) <;> decide

theorem mem_of_both {α : Type} {c : Prop} [Decidable c] {a b : α} {l : List α} (h : a ∈ l) (k : b ∈ l) :
    (if c then a else b) ∈ l := by
  split <;> assumption

/-- A request that is not short is of an open row or of an owner-only row. -/
theorem requestRow_mem (r : Request) : requestRow r ∈ openRows ++ ownerOnlyRows := by
  have h := writeConfigRow_mem r.args
  unfold requestRow
  simp only
  repeat' apply mem_of_both
  all_goals first | decide | exact List.mem_append_right _ h

/-- The row BAD_CODE is that of the unknown codes (R133). -/
theorem requestRow_badCode (r : Request) : requestRow r = .badCode ↔ knownCode r.code = false := by
  have h3 : writeConfigRow r.args ≠ .badCode :=
    (by decide : ∀ i ∈ ownerOnlyRows, i ≠ .badCode) _ (writeConfigRow_mem r.args)
  unfold requestRow knownCode
  simp only [decide_eq_false_iff_not, List.mem_cons, List.not_mem_nil, or_false]
  generalize r.code.toNat = n
  constructor
  · intro e
    rintro (h|h|h|h|h|h|h|h|h|h|h|h|h|h|h|h|h|h) <;> subst h <;> simp at e <;> (try split at e) <;>
      first | cases e | exact h3 e
  · intro hn
    simp only [not_or] at hn
    obtain ⟨h1, h2, h3, h4, h5, h6, h7, h8, h9, h10, h11, h12, h13, h14, h15, h16, h17, h18⟩ := hn
    simp [*]

/-- The meaning of an open row is its taking, with no owner check (R137). -/
theorem exec_open : ∀ i ∈ openRows, ∀ s, ∃ run, exec i s = takeOpen i run s := by
  intro row hr s
  simp only [openRows, List.mem_cons, List.not_mem_nil, or_false] at hr
  rcases hr with h|h|h|h|h|h|h|h <;> subst h <;> exact ⟨_, rfl⟩

/-- The meaning of an owner-only row is its taking with the owner and sequence checks (R135, R136). -/
theorem exec_owned : ∀ i ∈ ownerOnlyRows, ∀ s, ∃ run, exec i s = takeOwned i run s := by
  intro row hr s
  simp only [ownerOnlyRows, List.cons_append, List.nil_append, List.mem_cons, List.not_mem_nil, or_false] at hr
  rcases hr with h|h|h|h|h|h|h|h|h|h|h|h|h|h|h|h|h|h|h|h|h|h|h|h|h <;> subst h <;> exact ⟨_, rfl⟩

end Sys2Proof.Machine
end

