-- ==== Sys2Proof/Laws/Time.lean ====
section
/-! SUPPORT. What a move of the time base can do: the events of a part time, and the four outcomes of a move on an empty queue. -/

namespace Sys2Proof.Machine

theorem serviceOpen_iff (s : State) (h : s.inReset = false) :
    serviceOpen s = true ↔ s.agent.serviced = false ∧ s.time.toNat % 1024 = 0 := by
  have hr : s.pins.resetN = true := by simpa [State.inReset] using h
  simp [serviceOpen, hr, Config.servicePeriod, and_comm]

theorem mem_eventIf (e i : Instr) {b : Bool} {P : Prop} (h : b = true ↔ P) : e ∈ eventIf b i ↔ e = i ∧ P := by
  rw [← h]
  cases b <;> simp [eventIf]

theorem mem_serviceEvent (s : State) (e : Instr) :
    e ∈ serviceEvent s ↔ ∃ slot rest, s.agent.fifo = slot :: rest ∧ e = slotRow slot ∧ serviceOpen s = true := by
  unfold serviceEvent
  cases hf : s.agent.fifo with
  | nil => simp
  | cons slot rest =>
    simp only [List.cons.injEq, mem_eventIf e _ Iff.rfl]
    constructor
    · exact fun h => ⟨slot, rest, ⟨rfl, rfl⟩, h.1, h.2⟩
    · rintro ⟨_, _, ⟨rfl, _⟩, h⟩
      exact h

/-- The events of a part time are the expiries that are due and the taking of the oldest request at a service moment (R93, R132). -/
theorem mem_dueEvents (s : State) (e : Instr) :
    e ∈ dueEvents s ↔
      (e = .acquireTimeout ∧ s.tracker.wait = some (.acquireTimeout s.time))
        ∨ (e = .windowClose ∧ s.tracker.wait = some (.windowClose s.time))
        ∨ (e = .entryDeadline ∧ s.sequencer.deadline = some s.time)
        ∨ (e = .settleDue ∧ s.sequencer.settle = some s.time)
        ∨ (e = .syncOutPulseEnd ∧ s.sequencer.pulseEnd = some s.time)
        ∨ (e = .transmissionCompletion .a ∧ ∃ f, (s.sched .a).inFlight = some f ∧ f.due = s.time)
        ∨ (e = .transmissionCompletion .b ∧ ∃ f, (s.sched .b).inFlight = some f ∧ f.due = s.time)
        ∨ (e = .leaseExpiry ∧ s.agent.session.leaseWait = some s.time)
        ∨ ∃ slot rest, s.agent.fifo = slot :: rest ∧ e = slotRow slot ∧ serviceOpen s = true := by
  have due : ∀ w : Option Time, waitDue w s = true ↔ w = some s.time := fun w => by simp [waitDue]
  have sent : ∀ p, completionDue p s = true ↔ ∃ f, (s.sched p).inFlight = some f ∧ f.due = s.time := fun p => by
    simp [completionDue, waitDue]
  simp only [dueEvents, List.mem_append, mem_serviceEvent, or_assoc, mem_eventIf e _ beq_iff_eq, mem_eventIf e _ (due _),
    mem_eventIf e _ (sent _)]

/-- A request row is no expiry. -/
theorem slotRow_not_expiry (slot : Slot) :
    ∀ e ∈ ([.acquireTimeout, .windowClose, .entryDeadline, .settleDue, .syncOutPulseEnd, .transmissionCompletion .a,
      .transmissionCompletion .b, .leaseExpiry] : List Instr), slotRow slot ≠ e := by
  intro e he h
  unfold slotRow at h
  split at h
  · subst h
    simp at he
  · have hm := requestRow_mem (requestOf slot)
    rw [h] at hm
    fin_cases he <;> revert hm <;> decide

theorem mem_openEvents (s : State) (e : Instr) : e ∈ openEvents s ↔ e ∈ dueEvents s ∧ e ∉ s.handed := by
  simp [openEvents]

/-- The next event is one of the part time's that has not been handed out; with none left part time rises. -/
theorem nextEvent_cases (s : State) :
    (openEvents s = [] ∧ nextEvent s = advance s)
      ∨ ∃ e k, e ∈ openEvents s ∧ nextEvent s = { s with pending := [e], handed := e :: s.handed, tieCount := k } := by
  unfold nextEvent
  split
  · rename_i h
    exact .inl ⟨h, rfl⟩
  · rename_i e h
    exact .inr ⟨e, s.tieCount, by simp [h], rfl⟩
  · rename_i e es _ h
    refine .inr ⟨_, s.tieCount + 1, ?_, rfl⟩
    rw [h, List.getD_eq_getElem _ _ (by simpa using Nat.mod_lt _ (Nat.succ_pos _))]
    exact List.getElem_mem _

/-- All that a move on an empty queue can do: nothing in reset; the service moment is used up at an empty FIFO; one event is handed out; or part
time rises. -/
theorem tick_cases (s : State) :
    (s.inReset = true ∧ tick s = s)
      ∨ (s.inReset = false ∧ serviceOpen s = true ∧ s.agent.fifo = []
        ∧ tick s = { s with agent := { s.agent with serviced := true } })
      ∨ (s.inReset = false ∧ openEvents s = [] ∧ tick s = advance s)
      ∨ (s.inReset = false ∧ ∃ e k, e ∈ openEvents s
        ∧ tick s = { s with pending := [e], handed := e :: s.handed, tieCount := k }) := by
  unfold tick
  split
  · rename_i h
    exact .inl ⟨h, rfl⟩
  · rename_i h
    rw [Bool.not_eq_true] at h
    split
    · rename_i h'
      simp only [Bool.and_eq_true, List.isEmpty_iff] at h'
      exact .inr (.inl ⟨h, h'.1, h'.2, rfl⟩)
    · rcases nextEvent_cases s with ⟨a, b⟩ | ⟨e, k, a, b⟩
      · exact .inr (.inr (.inl ⟨h, a, b⟩))
      · exact .inr (.inr (.inr ⟨h, e, k, a, b⟩))

end Sys2Proof.Machine
end

