-- ==== Sys2Proof/Tests/Slice0.lean ====
section
/-! SUPPORT. The model's own tests: ill-formed terms that WellFormed refuses, single steps taken from the worked examples of the manual, and for
each statement with hypotheses a state that meets them. -/

-- The theorems are checked one after another: each waits for the kernel, and as many waiting threads would not fit in memory.
set_option Elab.async false

namespace Sys2Proof.Tests

open Sys2Proof Sys2Proof.Machine

/-! ### Small states -/

/-- The state a command leads to. -/
def result (o : Host.Outcome State Fault Refusal) : State :=
  match o with
  | .next s => s
  | .fault _ => State.reset
  | .refused _ => State.reset

/-- The reset state at a part time. -/
def clocked (t : Nat) : State := { State.reset with time := BitVec.ofNat 48 t }

/-- A part time. -/
def ticks (t : Nat) : Time := BitVec.ofNat 48 t

/-- Both links UP, both indications UP. -/
def linked (s : State) : State :=
  { s with ports := ⟨⟨.up, Receiver.idle⟩, ⟨.up, Receiver.idle⟩⟩, pins := { s.pins with phy := ⟨.up, .up⟩ } }

/-- A port is receiving. -/
def receivingA (s : State) : State := { s with ports := ⟨⟨.up, ⟨true, [], 0, false⟩⟩, s.ports.b⟩ }

/-- The part is held in reset. -/
def held : State := State.powerOn lowStraps false ⟨.down, .down⟩ 0 []

/-- A tracker, with LOCK as it follows. -/
def tracking (tr : Tracker) (s : State) : State :=
  { s with
    tracker := tr
    config := { s.config with trackerEnable := true }
    pins := { s.pins with lock := tr.state.isLocked } }

/-- A sequencer state. -/
def sequencing (st : SequencerState) (s : State) : State :=
  { s with sequencer := { s.sequencer with state := st }, config := { s.config with sequencerEnable := true } }

/-- A locked tracker as in section 1.10. -/
def lockedTracker : Tracker :=
  ⟨.locked, [125000, 125000, 125000, 125000], 4, some 125000, ticks 10000000, 0, false, some (.windowClose (ticks 10132812))⟩

/-- An acquiring tracker as in section 1.9, with one capture. -/
def acquiringTracker : Tracker :=
  ⟨.acquiring, [125010], 1, none, ticks 1125010, 0, false, some (.acquireTimeout (ticks 13625010))⟩

/-- The queues {7, M}, {6, 7, M} and {5, 6, 7, M}. -/
def open7 : GateSet := 0x180#9
def open67 : GateSet := 0x1C0#9
def open567 : GateSet := 0x1E0#9

/-- The bank of section 2.7. -/
def plan : Bank :=
  ⟨⟨2, #v[0, 8, 0, 0]⟩,
    ((((Bank.powerOn.entries.set 0 ⟨⟨open7, open7⟩, true, .timed 256 1⟩).set 1
      ⟨⟨open67, open67⟩, true, .step 640 32 2⟩).set 2 ⟨⟨allGates, allGates⟩, true, .tail⟩).set 8
      ⟨⟨open7, open7⟩, true, .timed 128 9⟩).set 9 ⟨⟨open567, open567⟩, true, .timed 512 2⟩⟩

/-- The bank of section 2.7 with another entry. -/
def planWith (i : EntryIndex) (e : EntryEnd) : Bank := { plan with entries := plan.entries.set i ⟨⟨open7, open7⟩, true, e⟩ }

/-- The bank of section 2.7 active, the sequencer RUNNING with T = 2,000,000 and S = 125,000 in an entry that ends at an offset. -/
def walking (i : EntryIndex) (now endTime : Nat) : State :=
  let s := clocked now
  let gates := (plan.entry i).gates
  { s with
    programs := ⟨plan, Bank.powerOn, .bank0, false⟩
    tracker := lockedTracker
    pins := { s.pins with lock := true }
    config := { s.config with trackerEnable := true, sequencerEnable := true }
    egress := ⟨{ Egress.powerOn with presentation := ⟨gates.a, some (ticks endTime)⟩ },
      { Egress.powerOn with presentation := ⟨gates.b, some (ticks endTime)⟩ }⟩
    sequencer :=
      { s.sequencer with
        state := .running
        current := i
        origin := ticks 2000000
        span := 125000
        endTime := ticks endTime
        cycle := 6
        deadline := entryDeadlineOf (plan.entry i).ending (ticks endTime)
        presentation := ⟨⟨gates.a, some (ticks endTime)⟩, ⟨gates.b, some (ticks endTime)⟩⟩ } }

/-- A pending transition as in section 3.11, recorded at 2,050,000. -/
def transiting (s : State) : State :=
  { s with sequencer := { s.sequencer with pending := some ⟨2, ticks 2053906⟩, settle := some (ticks 2053906) } }

/-- The manager of section 9.10. -/
def mgr : Mac := 0x02000000000A#48

/-- A request slot: header, arguments, and four bytes in the place of the check sequence. -/
def slotFor (code : Byte) (args : List Byte) (sequence session flags : Nat) : Slot :=
  let bytes := List.replicate 12 0 ++ [0x9C, 0x41, 1, code] ++ bigEndian 2 (10 + args.length) ++ bigEndian 2 sequence
    ++ bigEndian 2 session ++ bigEndian 2 flags ++ args ++ List.replicate 4 0
  ⟨bytes, bytes.length, mgr, .a, 0⟩

/-- A service moment with a slot in front, in a session that the manager owns. -/
def owning (slot : Slot) : State :=
  { State.reset with
    agent := ⟨[slot], false, ⟨true, mgr, .a, 1, 30000, ticks 3750000000, 0, some (ticks 3750000000)⟩, none⟩ }

/-- The owner's next request. -/
def ownSlot (code : Byte) (args : List Byte) (flags : Nat := 0) : Slot := slotFor code args 1 1 flags

/-- The hypotheses that the statements about an owner's request share, on the owner's next request with more of the state changed. -/
def meets (row : Instr) (code : Byte) (args : List Byte) (flags : Nat) (change : State → State) (extra : State → Bool) : Bool :=
  let slot := ownSlot code args flags
  let s := change (owning slot)
  serviceOpen s && decide (s.agent.fifo = [slot]) && decide (slotRow slot = row) && (headerRefusal (requestOf slot)).isNone
    && ownerCheck (requestOf slot) s && decide ((requestOf slot).sequence = s.agent.session.lastSequence + 1)
    && decide ((requestOf slot).args = args) && extra s

/-- What a true `meets` says. -/
theorem meets_sound {row : Instr} {code : Byte} {args : List Byte} {flags : Nat} {change : State → State}
    {extra : State → Bool} (h : meets row code args flags change extra = true) :
    ∃ slot s, s.serves row slot [] ∧ s.ownersNext (requestOf slot) ∧ (requestOf slot).args = args ∧ extra s = true := by
  simp only [meets, Bool.and_eq_true, decide_eq_true_eq, Option.isNone_iff_eq_none] at h
  obtain ⟨⟨⟨⟨⟨⟨⟨h1, h2⟩, h3⟩, h4⟩, h5⟩, h6⟩, h7⟩, h8⟩ := h
  exact ⟨_, _, ⟨h1, h2, h3, h4⟩, ⟨h5, h6⟩, h7, h8⟩

/-- No more is asked. -/
def nothing (_ : State) : Bool := true

/-! ### WellFormed refuses ill-formed terms -/

theorem test_command_wellFormed : Instr.wellFormed (.receptionCompletion .a [] true) = true := rfl
theorem test_entry_offset_zero : Entry.wellFormed ⟨⟨0, 0⟩, false, .timed 0 1⟩ = false := by decide
theorem test_entry_offset_1024 : Entry.wellFormed ⟨⟨0, 0⟩, false, .step 1024 0 1⟩ = false := by decide
theorem test_entry_offset_ends : Entry.wellFormed ⟨⟨0, 0⟩, false, .timed 1 1⟩ = true
    ∧ Entry.wellFormed ⟨⟨0, 0⟩, false, .step 1023 255 31⟩ = true := by decide
theorem test_bank_illegal_entry : Bank.entriesLegal { plan with entries := plan.entries.set 7 ⟨⟨0, 0⟩, false, .timed 0 1⟩ } = false := by
  decide +kernel
theorem test_group_address : individualAddress 0x010000000000#48 = false := by decide
theorem test_quota_513 : quotasInRange (powerOnQuotas.set 8 513) = false := by decide
theorem test_items_station : ({ ConfigItems.powerOn lowStraps with stationAddress := 0x010000000000#48 } : ConfigItems).wellFormed = false := by
  decide +kernel
theorem test_items_type_low : ({ ConfigItems.powerOn lowStraps with managementType := 0x05FF } : ConfigItems).wellFormed = false := by
  decide +kernel
theorem test_items_type_tag : ({ ConfigItems.powerOn lowStraps with managementType := 0x8100 } : ConfigItems).wellFormed = false := by
  decide +kernel
theorem test_items_depth : ({ ConfigItems.powerOn lowStraps with depth := 3 } : ConfigItems).wellFormed = false := by
  decide +kernel
theorem test_items_window : ({ ConfigItems.powerOn lowStraps with window := 129 } : ConfigItems).wellFormed = false := by
  decide +kernel
theorem test_items_holdover : ({ ConfigItems.powerOn lowStraps with holdover := 16 } : ConfigItems).wellFormed = false := by
  decide +kernel
theorem test_items_spans : ({ ConfigItems.powerOn lowStraps with spanMin := 12500001 } : ConfigItems).wellFormed = false := by
  decide +kernel
theorem test_items_quota_a : ({ ConfigItems.powerOn lowStraps with quotas := ⟨powerOnQuotas.set 0 513, powerOnQuotas⟩ } : ConfigItems).wellFormed
    = false := by decide +kernel
theorem test_items_quota_b : ({ ConfigItems.powerOn lowStraps with quotas := ⟨powerOnQuotas, powerOnQuotas.set 0 513⟩ } : ConfigItems).wellFormed
    = false := by decide +kernel
theorem test_items_power_on : (ConfigItems.powerOn lowStraps).wellFormed = true := by decide +kernel
theorem test_lease_999 : ({ Session.powerOn with leaseMs := 999 } : Session).leaseInRange = false := by decide

/-! ### Bytes and times -/

theorem test_crc_check_value : crc32 [0x31, 0x32, 0x33, 0x34, 0x35, 0x36, 0x37, 0x38, 0x39] = 0xCBF43926 := by decide +kernel
theorem test_after_wraps : Time.after 1 0xFFFFFFFFFFFF#48 = true ∧ Time.after 0xFFFFFFFFFFFF#48 1 = false
    ∧ Time.after 5 5 = false ∧ Time.after 0x7FFFFFFFFFFF#48 0 = true ∧ Time.after 0x800000000000#48 0 = false := by decide
theorem test_check_register : crc32 [0x31, 0x32, 0x33] = (~~~(checkRegister [0x31, 0x32, 0x33])).reverse.toNat
    ∧ checkPasses ([0x31, 0x32, 0x33] ++ bigEndian 4 (~~~(checkRegister [0x31, 0x32, 0x33])).reverse.toNat) = true
    ∧ checkPasses ([0x31, 0x32, 0x33] ++ [0, 0, 0, 0]) = false := by decide +kernel
theorem test_transmission_times : transmissionTime .mbps1000 64 = 84 ∧ transmissionTime .mbps1000 1536 = 1556
    ∧ transmissionTime .mbps100 64 = 840 ∧ transmissionTime .mbps100 1536 = 15560 := by decide
theorem test_cells_needed : cellsNeeded 64 = 1 ∧ cellsNeeded 128 = 1 ∧ cellsNeeded 129 = 2 ∧ cellsNeeded 1536 = 12 := by decide
theorem test_tagged_fields : frameFields (List.replicate 12 0 ++ [0x81, 0x00, 0xA0, 0x05, 0x81, 0x00])
    = ⟨0, 0, some (5, 5), 0x8100, 18⟩ := by decide +kernel

/-! ### Section 1.9: acquisition at depth 4 -/

theorem test_first_mark : (takeCycleMark (ticks 1000000) (tracking (Tracker.powerOn.cleared .seeking) (clocked 1000000))).tracker
    = ⟨.acquiring, [], 0, none, ticks 1000000, 0, false, some (.acquireTimeout (ticks 13500000))⟩ := by decide +kernel
theorem test_runt_span : (takeCycleMark (ticks 1126000) (tracking acquiringTracker (clocked 1126000))).tracker = acquiringTracker
    ∧ (takeCycleMark (ticks 1126000) (tracking acquiringTracker (clocked 1126000))).counters.tracker.runtSpans = 1 := by decide +kernel
theorem test_lock_acquired :
    (takeCycleMark (ticks 1500000) (tracking ⟨.acquiring, [125004, 124990, 125010], 3, none, ticks 1375004, 0, false,
        some (.acquireTimeout (ticks 13875004))⟩ (clocked 1500000))).tracker
      = ⟨.locked, [124996, 125004, 124990, 125010], 4, some 125000, ticks 1500000, 0, false,
        some (.windowClose (ticks 1632812))⟩ := by decide +kernel
theorem test_mark_in_window :
    (takeCycleMark (ticks 1625006) (tracking ⟨.locked, [124996, 125004, 124990, 125010], 4, some 125000, ticks 1500000, 0, false,
        some (.windowClose (ticks 1632812))⟩ (clocked 1625006))).tracker
      = ⟨.locked, [125006, 124996, 125004, 124990, 125010], 5, some 124999, ticks 1625006, 0, false,
        some (.windowClose (ticks 1757817))⟩ := by decide +kernel

/-! ### Section 1.10: a holdover run ending in loss -/

/-- The tracker in its second holdover window. -/
def heldTracker (missing boundary close : Nat) : Tracker :=
  ⟨.holdover, [125000, 125000, 125000, 125000], 4, some 125000, ticks boundary, missing, true, some (.windowClose (ticks close))⟩

/-- Holdover limit 2. -/
def twoMisses (s : State) : State := { s with config := { s.config with holdover := 2 } }

theorem test_window_close_to_holdover : (result (exec .windowClose (twoMisses (tracking lockedTracker (clocked 10132812))))).tracker
    = heldTracker 1 10125000 10257812 := by decide +kernel
theorem test_early_mark : (takeCycleMark (ticks 10200000) (twoMisses (tracking (heldTracker 1 10125000 10257812) (clocked 10200000)))).tracker
    = heldTracker 1 10125000 10257812 := by decide +kernel
theorem test_window_close_loses_lock :
    (result (exec .windowClose (twoMisses (tracking (heldTracker 2 10250000 10382812) (clocked 10382812))))).tracker
      = ⟨.seeking, [], 0, none, ticks 10250000, 0, false, none⟩ := by decide +kernel
theorem test_lock_regained : (takeCycleMark (ticks 10251000) (twoMisses (tracking (heldTracker 1 10125000 10257812) (clocked 10251000)))).tracker
    = ⟨.locked, [125000, 125000, 125000, 125000], 4, some 125000, ticks 10251000, 0, false,
      some (.windowClose (ticks 10383812))⟩ := by decide +kernel
theorem test_acquire_timeout : (result (exec .acquireTimeout (tracking acquiringTracker (clocked 13625010)))).tracker
    = ⟨.seeking, [], 0, none, ticks 1125010, 0, false, none⟩ := by decide +kernel

/-! ### Section 2.8: faults found at commit -/

theorem test_plan_wellFormed : validate plan = none := by decide +kernel
theorem test_bad_period : validate { plan with header := ⟨0, #v[0, 8, 0, 0]⟩ } = some ⟨.badPeriod, 0, 0⟩ := by decide +kernel
theorem test_bad_start : validate { plan with header := ⟨2, #v[0, 40, 0, 0]⟩ } = some ⟨.badStart, 1, 40⟩ := by decide +kernel
theorem test_slot_outside_list : validate { plan with header := ⟨2, #v[0, 8, 40, 0]⟩ } = none := by decide +kernel
theorem test_smaller_offset : validate (planWith 9 (.timed 100 2)) = some ⟨.nonIncreasing, 1, 9⟩ := by decide +kernel
theorem test_equal_offset : validate (planWith 9 (.timed 128 2)) = some ⟨.nonIncreasing, 1, 9⟩ := by decide +kernel
theorem test_next_eight : validate (planWith 9 (.timed 512 8)) = some ⟨.noTail, 1, 8⟩ := by decide +kernel
theorem test_position_zero_first :
    validate { planWith 9 (.timed 100 2) with
      entries := (planWith 9 (.timed 100 2)).entries.set 1 ⟨⟨open67, open67⟩, true, .step 640 32 0⟩ }
      = some ⟨.noTail, 0, 0⟩ := by decide +kernel
theorem test_unreached_entry : validate (planWith 5 (.timed 900 5)) = none := by decide +kernel

/-! ### Sections 3.11 and 3.12: a cycle with a STEP entry, and skipping -/

theorem test_boundary_starts_cycle :
    (takeBoundary (ticks 2125003) 125001 (walking 2 2125003 2125000)).sequencer
      = { (walking 2 2125003 2125000).sequencer with
          current := 8
          origin := ticks 2125003
          span := 125001
          endTime := ticks 2140628
          cycle := 7
          deadline := some (ticks 2140628)
          presentation := ⟨⟨open7, some (ticks 2140628)⟩, ⟨open7, some (ticks 2140628)⟩⟩
          pulseEnd := some (ticks 2125128) } := by decide +kernel
theorem test_entry_deadline : (result (exec .entryDeadline (walking 0 2031250 2031250))).sequencer
    = { (walking 1 2031250 2078125).sequencer with deadline := some (ticks 2078125) } := by decide +kernel
theorem test_late_step_mark : (takeStepMark (ticks 2076000) (walking 1 2076000 2078125)).sequencer
    = { (walking 1 2076000 2078125).sequencer with stepSeen := true } := by decide +kernel
theorem test_step_mark_in_time : (takeStepMark (ticks 2050000) (walking 1 2050000 2078125)).sequencer
    = (transiting (walking 1 2050000 2078125)).sequencer := by decide +kernel
theorem test_settle_due : (result (exec .settleDue (transiting (walking 1 2053906 2078125)))).sequencer.current = 2
    ∧ (result (exec .settleDue (transiting (walking 1 2053906 2078125)))).sequencer.deadline = none := by decide +kernel
theorem test_step_timeout : (result (exec .entryDeadline (walking 1 2078125 2078125))).counters.sequencer.stepTimeouts = 1 := by
  decide +kernel
theorem test_skipping_odd_cycle : examine plan (ticks 3000000) 125000 (ticks 3062500) 32 8 0 = (2, 2) := by decide +kernel
theorem test_skipping_even_cycle : examine plan (ticks 3000000) 125000 (ticks 3062500) 32 0 0 = (1, 1) := by decide +kernel
theorem test_halt_while_pending :
    (sequencerHalt (transiting (walking 1 2052096 2078125))).sequencer.presentation = ⟨⟨open67, none⟩, ⟨open67, none⟩⟩
      ∧ (sequencerHalt (transiting (walking 1 2052096 2078125))).counters.sequencer.settleCancels = 1 := by decide +kernel

/-! ### Sections 4.7, 4.8 and 7.9: guard, overrun, admission -/

/-- A record of a length waits in queue 7 of port B at 2,063,200, in the guarded entry 1. -/
def waiting (length : Nat) : State :=
  let s := linked (walking 1 2063200 2078125)
  (s.setRecord 0 ⟨length, .b, 7, [0], false⟩).setQueue .b 7 ⟨[0], 1, 1⟩

theorem test_guard_holds : ((evaluate .b (waiting 1500)).sched .b).inFlight = none
    ∧ ((evaluate .b (waiting 1500)).record 0).guardHeld = true
    ∧ (evaluate .b (waiting 1500)).counters.ports.b.guardHolds = 1 := by decide +kernel
theorem test_guard_passes : ((evaluate .b (waiting 200)).sched .b).inFlight = some ⟨0, ticks 2063200, ticks 2065400, false⟩ := by
  decide +kernel

/-- A 1,500-byte frame of queue 3 in flight on port A, due at 2,125,520. -/
def overrunning : State :=
  let s := linked (walking 2 2125003 2125000)
  (s.setRecord 0 ⟨1500, .a, 3, [0], false⟩).setInFlight .a (some ⟨0, ticks 2124000, ticks 2125520, false⟩)

theorem test_overrun_counted : (takeGateChange .a ⟨open7, some (ticks 2140628)⟩ overrunning).counters.ports.a.overruns = 1 := by
  decide +kernel
theorem test_admission_order :
    admissionVerdict .a 0 1536 { State.reset with pool := { Pool.powerOn with freeRecords := [], freeCells := [] } } = some .noRecord
      ∧ admissionVerdict .a 0 1536 { State.reset with pool := { Pool.powerOn with freeRecords := [0, 1], freeCells := List.replicate 9 0 } }
        = some .poolEmpty
      ∧ admissionVerdict .b 3 1536 ((clocked 0).setQueue .b 3 ⟨[], 21, 40⟩) = some .quota := by decide +kernel

/-! ### Witnesses: states that meet the hypotheses of the statements, clause by clause -/

/-- The agent has not been at its service moment. -/
def unserved (s : State) : State := { s with agent := { s.agent with serviced := false } }

theorem test_meets_TickHandsOutDueEvents :
    let quiet := unserved (clocked 2048)
    let due := walking 0 2031250 2031250
    let asked := owning (ownSlot 0x30 [])
    quiet.pending = [] ∧ quiet.inReset = false ∧ quiet.time.toNat % 1024 = 0 ∧ quiet.agent.serviced = false ∧ quiet.agent.fifo = []
      ∧ State.reset.pending = [] ∧ State.reset.inReset = false ∧ State.reset.agent.serviced = true ∧ dueEvents State.reset = []
      ∧ due.pending = [] ∧ due.inReset = false ∧ due.time.toNat % 1024 ≠ 0 ∧ dueEvents due = [.entryDeadline] ∧ due.handed = []
      ∧ asked.pending = [] ∧ asked.inReset = false ∧ asked.agent.fifo ≠ [] ∧ .halt ∈ dueEvents asked := by decide +kernel

/-- A due expiry is handed out once, and then part time goes on. -/
theorem test_expiry_handed_out :
    let due := walking 0 2031250 2031250
    (tick due).pending = [.entryDeadline] ∧ (tick due).time = due.time
      ∧ (tick { tick due with pending := [] }).time = due.time + 1 ∧ (tick { tick due with pending := [] }).pending = [] := by
  decide +kernel

theorem test_meets_HeldInReset : held.inReset = true ∧ held.pending = [] ∧ State.reset.inReset = false := by decide +kernel

theorem test_meets_ResetReleaseSamples : held.inReset = true := by decide +kernel

theorem test_meets_FullResetClears : meets .resetFull 0x05 [1] 0 id nothing = true := by decide +kernel

theorem reset_poolWhole : State.reset.poolWhole := by
  have hq : ∀ p q, State.reset.queue p q = Queue.empty := by
    intro p q
    cases p <;> fin_cases q <;> rfl
  have hf : ∀ p, State.reset.inFlightRecord p = [] := fun p => by cases p <;> rfl
  have h1 : State.reset.pool.freeRecords = List.finRange 256 := by simp only [State.reset, State.powerOn, Pool.powerOn]
  have h2 : State.reset.pool.freeCells = List.finRange 512 := by simp only [State.reset, State.powerOn, Pool.powerOn]
  have hh : State.reset.heldRecords = [] := by decide +kernel
  refine ⟨?_, ?_, ?_, ?_, ?_, ?_⟩
  · rw [hh, List.append_nil, h1]
  · rw [hh, List.flatMap_nil, List.append_nil, h2]
  · intro p q; rw [hq]; exact ⟨rfl, rfl⟩
  · intro p q h hm; rw [hq] at hm; cases hm
  · intro p h hm; rw [hf] at hm; cases hm
  · intro h hm; rw [hh] at hm; cases hm

theorem test_meets_TrafficResetClearsTraffic :
    meets .resetTraffic 0x05 [2] 0 id nothing = true
      ∧ meets .resetTraffic 0x05 [0] 0 (tracking (Tracker.powerOn.cleared .seeking))
        (fun s => s.config.trackerEnable && s.tracker.state == .seeking) = true
      ∧ meets .resetTraffic 0x05 [0] 0 id (fun s => !s.config.trackerEnable && !s.tracker.state.isLocked) = true
      ∧ meets .resetTraffic 0x05 [0] 0 (tracking acquiringTracker)
        (fun s => s.config.trackerEnable && s.tracker.state == .acquiring) = true
      ∧ meets .resetTraffic 0x05 [0] 0 (fun s => sequencing .running (tracking lockedTracker s))
        (fun s => s.config.trackerEnable && s.tracker.state.isLocked && s.sequencer.state.follows) = true := by decide +kernel

theorem test_meets_LinkUpTaken : (∀ p ∈ [Port.a, Port.b], State.reset.inReset = false ∧ (State.reset.port p).link = .down
    ∧ State.reset.agent.session.isOpen = false ∧ ((linked State.reset).port p).link = .up
    ∧ (State.reset.port p).receiver = Receiver.idle ∧ (State.reset.sched p).inFlight = none) := by decide +kernel

theorem test_meets_LinkDownTaken :
    let s := linked (sequencing .running (tracking lockedTracker State.reset))
    let u := linked (tracking acquiringTracker State.reset)
    s.inReset = false ∧ (s.port .a).link = .up ∧ (s.port .b).link = .up ∧ s.agent.session.isOpen = false
      ∧ s.config.cadencePort = .a ∧ .b ≠ s.config.cadencePort ∧ s.tracker.state.isLocked = true ∧ u.tracker.state = .acquiring
      ∧ (linked State.reset).tracker.state = .off ∧ (State.reset.port .a).link = .down
      ∧ (linked (owning (ownSlot 0x30 []))).agent.session.isOpen = true
      ∧ (linked (owning (ownSlot 0x30 []))).agent.session.ownerPort = .a
      ∧ ((linked (owning (ownSlot 0x30 []))).port .b).link = .up := by decide +kernel

theorem test_meets_TrafficResetClearsTraffic_pool (slot : Slot) : (owning slot).poolWhole := reset_poolWhole

theorem test_meets_LinkDownTaken_pool : (linked State.reset).poolWhole ∧ (linked State.reset).inReset = false
    ∧ ((linked State.reset).port .a).link = .up := ⟨reset_poolWhole, rfl, rfl⟩

/-- Section 5.4 in small: the owner's port goes down, and M holds the LINK_CHANGE notice alone. -/
theorem test_link_down_notice :
    let s := linked (owning (ownSlot 0x30 []))
    let t := result (exec (.linkDown .a) s)
    (t.queue .a queueM).records = [0] ∧ (t.record 0).length = 64
      ∧ (t.frameBytes 0).take 30 = (noticeFrame s ⟨.linkChange .a .down, 0, 0⟩).take 30
      ∧ (result (exec (.linkDown .b) s)).queue .b queueM = Queue.empty := by decide +kernel

/-- A frame of 64 bytes to the power-on station address with the management type, and one to another address. -/
def managementFrame : List Byte :=
  closeFrame ([0x02, 0x4D, 0x46, 0, 0, 0] ++ [0x02, 0, 0, 0, 0, 0x0A] ++ [0x9C, 0x41] ++ [1, 1, 0, 10])
def ordinaryFrame : List Byte :=
  closeFrame ([0x02, 0, 0, 0, 0, 0x0B] ++ [0x02, 0, 0, 0, 0, 0x0A] ++ [0x08, 0x00])

theorem test_meets_ReceptionsAndBadFrames :
    let s := linked State.reset
    let u := receivingA s
    s.inReset = false ∧ (s.port .a).link = .up ∧ (s.port .a).receiver.receiving = false ∧ (State.reset.port .a).link = .down
      ∧ (u.port .a).receiver.receiving = true
      ∧ (ordinaryFrame.take 63).length < 64 ∧ 1536 < (List.replicate 1537 (0 : Byte)).length
      ∧ 64 ≤ (List.replicate 64 (0 : Byte)).length ∧ (List.replicate 64 (0 : Byte)).length ≤ 1536
      ∧ checkPasses (List.replicate 64 0) = false := by decide +kernel

/-- The fields of a tagged frame and of an untagged one. -/
theorem test_meets_MatchAndGoverningEntry_fields :
    let tagged : List Byte := List.replicate 12 0 ++ [0x81, 0x00, 0xFF, 0xFF, 0x08, 0x00]
    numberOf ((tagged.drop 12).take 2) = 0x8100 ∧ numberOf ((ordinaryFrame.drop 12).take 2) ≠ 0x8100
      ∧ frameFields tagged = ⟨0, 0, some (7, 4095), 0x0800, 18⟩ := by decide +kernel

theorem test_meets_ManagementFrameQueued :
    let s := receivingA (linked State.reset)
    s.receivesGood .a managementFrame ∧ (frameFields managementFrame).destination = s.config.stationAddress
      ∧ (frameFields managementFrame).etherType = s.config.managementType := by
  refine ⟨⟨?_, ?_, ?_, ?_, ?_, ?_⟩, ?_, ?_⟩ <;> decide +kernel

theorem test_meets_OrdinaryFrameClassified :
    let s := receivingA (linked State.reset)
    s.receivesGood .a ordinaryFrame ∧ ¬((frameFields ordinaryFrame).destination = s.config.stationAddress
      ∧ (frameFields ordinaryFrame).etherType = s.config.managementType) := by
  refine ⟨⟨?_, ?_, ?_, ?_, ?_, ?_⟩, ?_⟩ <;> decide +kernel

theorem test_meets_ClassAndMark : (frameFields (List.replicate 12 0 ++ [0x81, 0x00, 0xE0, 0x05, 0x08, 0x00])).tag = some (7, 5)
    ∧ (frameFields ordinaryFrame).tag = none ∧ State.reset.config.cadencePort = .a ∧ Port.b ≠ State.reset.config.cadencePort := by
  decide +kernel

theorem test_meets_EvaluationStartsFirstPassingHead :
    let s := waiting 200
    (s.sched .b).inFlight = none ∧ (s.port .b).link = .up ∧ priorityOrder.find? (fun q => s.headPasses .b q) = some 7
      ∧ priorityOrder.find? (fun q => (waiting 1500).headPasses .b q) = none
      ∧ (waiting 1500).heldHeads .b = [0] ∧ (waiting 1500).newlyHeld .b = [0]
      ∧ (overrunning.sched .a).inFlight ≠ none ∧ (State.reset.port .a).link = .down := by decide +kernel

theorem test_meets_GuardedHeads_speeds : State.reset.speed .a = .mbps100 ∧ State.reset.speed .b = .mbps100
    ∧ ({ State.reset with straps := ⟨.mbps1000, .mbps1000, 0⟩ } : State).speed .a = .mbps1000
    ∧ ({ State.reset with straps := ⟨.mbps1000, .mbps1000, 0⟩ } : State).speed .b = .mbps1000 := by decide +kernel

theorem test_meets_GuardedHeads : ((waiting 200).record 0).guardHeld = false
    ∧ (((waiting 200).setRecord 0 ⟨200, .b, 7, [0], true⟩).record 0).guardHeld = true := by decide +kernel

theorem test_meets_GateChangeTaken : ((linked State.reset).sched .a).inFlight = none
    ∧ State.reset.sequencer.presentation.get .a = ⟨allGates, none⟩ ∧ State.reset.sequencer.presentation.get .a ≠ ⟨open7, none⟩
    ∧ (overrunning.sched .a).inFlight = some ⟨0, ticks 2124000, ticks 2125520, false⟩ := by decide +kernel

theorem test_meets_TransmissionCompletes :
    let s := { overrunning with time := ticks 2125520 }
    s.inReset = false ∧ (s.sched .a).inFlight = some ⟨0, ticks 2124000, ticks 2125520, false⟩
      ∧ (∀ f, (s.sched .a).inFlight = some f → f.due = s.time)
      ∧ (∀ f ∈ (overrunning.sched .a).inFlight, f.due ≠ overrunning.time) := by
  refine ⟨by decide +kernel, by decide +kernel, ?_, by decide +kernel⟩
  intro f h
  have e : ({ overrunning with time := ticks 2125520 } : State).sched .a = overrunning.sched .a := rfl
  rw [e, show (overrunning.sched .a).inFlight = some ⟨0, ticks 2124000, ticks 2125520, false⟩ by decide +kernel] at h
  cases h
  rfl

theorem test_meets_AdmissionAndRefusal :
    let s := { owning (ownSlot 0x30 []) with
      pool := { Pool.powerOn with freeRecords := [] }, notices := ⟨[⟨.lockLost .missing, 0, 0⟩], 0, false⟩ }
    admissionVerdict .b 3 64 s = some .noRecord ∧ admissionVerdict .a queueM 64 s = some .noRecord
      ∧ s.notices.records = [⟨.lockLost .missing, 0, 0⟩]
      ∧ admissionVerdict s.agent.session.ownerPort queueM (noticeFrame s ⟨.lockLost .missing, 0, 0⟩).length s
        = some .noRecord := by decide +kernel

theorem test_meets_AcceptedFrameStored : State.reset.pool.freeCells.Nodup ∧ State.reset.pool.freeRecords ≠ []
    ∧ ((List.replicate 64 (0 : Byte)).length + 127) / 128 ≤ State.reset.pool.freeCells.length
    ∧ (State.reset.queue .b queueM).cells + ((List.replicate 1536 (0 : Byte)).length + 127) / 128
      ≤ State.reset.quota .b queueM := by
  refine ⟨?_, ?_, ?_, ?_⟩
  · simp only [State.reset, State.powerOn, Pool.powerOn]
    exact List.nodup_finRange 512
  all_goals decide +kernel

theorem test_meets_AcquireTimeoutTaken :
    let s := tracking acquiringTracker (clocked 13625010)
    s.inReset = false ∧ s.tracker.state = .acquiring ∧ s.tracker.wait = some (.acquireTimeout s.time)
      ∧ State.reset.tracker.wait ≠ some (.acquireTimeout State.reset.time) := by decide +kernel

theorem test_meets_WindowCloseTaken :
    let s := twoMisses (sequencing .running (tracking lockedTracker (clocked 10132812)))
    let u := twoMisses (sequencing .running (tracking (heldTracker 2 10250000 10382812) (clocked 10382812)))
    s.inReset = false ∧ s.tracker.state.isLocked = true ∧ s.tracker.wait = some (.windowClose s.time)
      ∧ s.tracker.ref = some 125000 ∧ s.tracker.missing + 1 ≤ s.config.holdover
      ∧ s.tracker.state = .locked ∧ (heldTracker 1 10125000 10257812).state = .holdover
      ∧ (heldTracker 1 10125000 10257812).missing + 1 ≤ s.config.holdover
      ∧ u.tracker.state.isLocked = true ∧ u.tracker.wait = some (.windowClose u.time) ∧ u.tracker.ref = some 125000
      ∧ u.config.holdover < u.tracker.missing + 1
      ∧ u.sequencer.state.follows = true ∧ State.reset.sequencer.state.follows = false
      ∧ State.reset.tracker.wait ≠ some (.windowClose State.reset.time) := by decide +kernel

theorem test_meets_AcquisitionMarksTaken :
    let s := tracking acquiringTracker (clocked 1250000)
    State.reset.tracker.state = .off ∧ (tracking (Tracker.powerOn.cleared .seeking) State.reset).tracker.state = .seeking
      ∧ s.tracker.state = .acquiring
      ∧ (ticks 1137509 - s.tracker.boundary).toNat < s.config.spanMin
      ∧ s.config.spanMin ≤ (ticks 1137510 - s.tracker.boundary).toNat
      ∧ min 16 (s.tracker.captures + 1) < s.config.depth
      ∧ s.config.depth ≤ min 16 ((tracking { acquiringTracker with captures := 3 } s).tracker.captures + 1) := by decide +kernel

theorem test_meets_WindowMarkTaken :
    let s := tracking lockedTracker (clocked 10117188)
    s.tracker.state.isLocked = true ∧ s.tracker.ref = some 125000
      ∧ Time.after (Time.plus s.tracker.boundary (125000 - 125000 * s.config.window / 256)) (ticks 10117187) = true
      ∧ Time.after (Time.plus s.tracker.boundary (125000 - 125000 * s.config.window / 256)) (ticks 10117188) = false
      ∧ Time.after (ticks 10132812) (Time.plus s.tracker.boundary (125000 + 125000 * s.config.window / 256)) = false := by
  decide +kernel

theorem test_meets_EntryEntered : plan.wellFormed = true ∧ (plan.entry 2).ending = .tail
    ∧ (plan.entry 0).ending = .timed 256 1 ∧ (plan.entry 1).ending = .step 640 32 2 := by decide +kernel

theorem test_meets_EntryDeadlineTaken :
    (∀ i ∈ [(0 : EntryIndex), 1], let s := walking i 2000500 2000500
      s.inReset = false ∧ s.sequencer.state = .running ∧ s.sequencer.deadline = some s.time)
      ∧ (walking 0 0 1).currentEntry.ending = .timed 256 1 ∧ (walking 1 0 1).currentEntry.ending = .step 640 32 2
      ∧ State.reset.sequencer.deadline ≠ some State.reset.time := by decide +kernel

theorem test_meets_SettleDueTaken :
    let s := transiting (walking 1 2053906 2078125)
    s.inReset = false ∧ s.sequencer.state = .running ∧ s.sequencer.settle = some s.time
      ∧ s.sequencer.pending = some ⟨2, ticks 2053906⟩ ∧ State.reset.sequencer.settle ≠ some State.reset.time := by
  decide +kernel

theorem test_meets_SyncOutPulseEnds :
    let s := { clocked 125 with sequencer := { Sequencer.powerOn with pulseEnd := some (ticks 125) } }
    s.inReset = false ∧ s.sequencer.pulseEnd = some s.time ∧ State.reset.sequencer.pulseEnd ≠ some State.reset.time := by
  decide +kernel

theorem test_meets_BoundaryTaken :
    (∀ st ∈ [SequencerState.stopped, .free, .running, .halted, .rejoining], (sequencing st State.reset).sequencer.state = st) := by
  decide +kernel

theorem test_meets_StepMarkTaken :
    let s := walking 1 2050000 2078125
    s.sequencer.state = .running ∧ s.currentEntry.ending = .step 640 32 2 ∧ s.sequencer.pending = none
      ∧ 0 < (32#8).toNat * s.sequencer.span / 1024
      ∧ Time.after s.sequencer.endTime (Time.plus (ticks 2074218) ((32#8).toNat * s.sequencer.span / 1024)) = true
      ∧ Time.after s.sequencer.endTime (Time.plus (ticks 2074219) ((32#8).toNat * s.sequencer.span / 1024)) = false
      ∧ (1#8).toNat * 1023 / 1024 = 0 ∧ State.reset.sequencer.state ≠ .running
      ∧ (transiting s).sequencer.pending ≠ none := by decide +kernel

theorem test_meets_ValidationOfBanks :
    let h : Nat → Byte → Bank := fun period slot => { plan with header := ⟨BitVec.ofNat 8 period, #v[0, 8, slot, 0]⟩ }
    (h 0 0).header.period.toNat < 1 ∧ 4 < (h 5 0).header.period.toNat
      ∧ 32 ≤ ((h 3 32).header.slot 2).toNat ∧ (∀ j < 2, ((h 3 32).header.slot j).toNat < 32)
      ∧ plan.wellFormed = true ∧ 1 < plan.header.period.toNat := by decide +kernel

/-- The walks of section 2.8: one that rises to a TAIL, one that comes back, one whose offset does not rise, and where each is found. -/
theorem test_meets_ValidationOfBanks_walks :
    (∀ b ∈ [plan, planWith 9 (.timed 512 8), planWith 9 (.timed 128 2)],
      1 ≤ b.header.period.toNat ∧ b.header.period.toNat ≤ 4 ∧ (∀ k < b.header.period.toNat, (b.header.slot k).toNat < 32)
        ∧ walkFault b 0 33 [] none (b.header.start 0) = none)
      ∧ walkFault (planWith 9 (.timed 512 8)) 1 33 [] none 8 = some ⟨.noTail, 1, 8⟩
      ∧ (planWith 9 (.timed 512 8)).nextOf 9 = some 8 ∧ (planWith 9 (.timed 512 8)).header.start 1 = 8
      ∧ (planWith 9 (.timed 128 2)).nextOf 8 = some 9 ∧ (planWith 9 (.timed 128 2)).offsetOf 8 = some 128
      ∧ (planWith 9 (.timed 128 2)).offsetOf 9 = some 128 := by decide +kernel

theorem risesTo_of_offsets (b : Bank) (i j : EntryIndex) (x : Nat) (hn : b.nextOf i = some j) (hx : b.offsetOf i = some x)
    (hy : ∀ y, b.offsetOf j = some y → x < y) : b.risesTo i j :=
  ⟨hn, fun x' y hx' => by rw [hx] at hx'; cases hx'; exact hy y⟩

theorem test_meets_ValidationOfBanks_rises :
    plan.risesToTail 0 ∧ plan.risesToTail 8
      ∧ (planWith 9 (.timed 512 8)).risesToTail 0 ∧ (planWith 9 (.timed 512 8)).walks 8 [8, 9] 9
      ∧ (planWith 9 (.timed 128 2)).risesToTail 0 ∧ (planWith 9 (.timed 128 2)).walks 8 [8] 8 := by
  have rises : ∀ b ∈ [plan, planWith 9 (.timed 512 8), planWith 9 (.timed 128 2)], b.risesToTail 0 := by
    intro b hb
    have facts : b.nextOf 0 = some 1 ∧ b.offsetOf 0 = some 256 ∧ b.nextOf 1 = some 2 ∧ b.offsetOf 1 = some 640
        ∧ b.offsetOf 2 = none ∧ (b.entry 2).ending = .tail := by
      revert b
      decide +kernel
    obtain ⟨n0, o0, n1, o1, o2, tail⟩ := facts
    refine ⟨[0, 1, 2], 2, ⟨rfl, rfl, by decide, ?_⟩, tail⟩
    have h01 := risesTo_of_offsets b 0 1 256 n0 o0 (fun y h => by rw [o1] at h; cases h; decide)
    have h12 := risesTo_of_offsets b 1 2 640 n1 o1 (fun y h => by rw [o2] at h; cases h)
    simpa using ⟨h01, h12⟩
  have h89 : ∀ b ∈ [plan, planWith 9 (.timed 512 8)], b.risesTo 8 9 := by
    intro b hb
    have facts : b.nextOf 8 = some 9 ∧ b.offsetOf 8 = some 128 ∧ b.offsetOf 9 = some 512 := by
      revert b
      decide +kernel
    obtain ⟨n8, o8, o9⟩ := facts
    exact risesTo_of_offsets b 8 9 128 n8 o8 (fun y h => by rw [o9] at h; cases h; decide)
  have h92 : plan.risesTo 9 2 :=
    risesTo_of_offsets plan 9 2 512 (by decide +kernel) (by decide +kernel)
      (fun y h => by rw [show plan.offsetOf 2 = none by decide +kernel] at h; cases h)
  refine ⟨rises _ (by simp), ⟨[8, 9, 2], 2, ⟨rfl, rfl, by decide, ?_⟩, by decide +kernel⟩, rises _ (by simp),
    ⟨rfl, rfl, by decide, ?_⟩, rises _ (by simp), ⟨rfl, rfl, by decide, by simp⟩⟩
  · simpa using ⟨h89 plan (by simp), h92⟩
  · simpa using h89 _ (by simp)

theorem test_meets_HeaderChecksInOrder_rows : (0x40 ≤ (0x48#8).toNat ∧ (0x48#8).toNat ≤ 0x48)
    ∧ (0x50 ≤ (0x58#8).toNat ∧ (0x58#8).toNat ≤ 0x58) ∧ configIdOf (0x59#8).toNat = none ∧ configIdOf (0x49#8).toNat = none := by
  decide +kernel

theorem test_meets_HeaderChecksInOrder :
    let asked : Slot → State := fun slot => { State.reset with agent := { State.reset.agent with fifo := [slot], serviced := false } }
    (∀ slot, serviceOpen (asked slot) = true ∧ (asked slot).agent.fifo = [slot])
      ∧ isShort ⟨List.replicate 27 0, 27, mgr, .a, 0⟩ = true ∧ isShort (slotFor 0x30 [] 1 1 0) = false
      ∧ (requestOf (slotFor 0x30 [] 1 1 0)).version = 1
      ∧ (requestOf ⟨List.replicate 15 0 ++ [0, 0, 10] ++ List.replicate 10 0, 28, mgr, .a, 0⟩).version ≠ 1
      ∧ isShort ⟨List.replicate 15 0 ++ [0, 0, 10] ++ List.replicate 10 0, 28, mgr, .a, 0⟩ = false
      ∧ slotRow (slotFor 0x06 [] 1 1 0) = .badCode ∧ slotRow (slotFor 0x30 [] 1 1 0x8000) ≠ .badCode
      ∧ (requestOf (slotFor 0x30 [] 1 1 0x8000)).flags.getLsbD 15 = true
      ∧ (requestOf (slotFor 0x30 [] 1 1 1)).flags.getLsbD 0 = true
      ∧ (requestOf (slotFor 0x30 [] 1 1 1)).code ≠ 0x40 := by
  refine ⟨fun slot => ⟨rfl, rfl⟩, ?_⟩
  decide +kernel

theorem test_meets_ResponseBuiltAndOffered_padding :
    let frame := responseFrame (requestOf (ownSlot 0x30 [])) (Answer.okay [7, 7]) State.reset
    frame.length - 4 = 60 ∧ frame[27]? = some 7 ∧ frame[28]? = some 0 ∧ frame[59]? = some 0 := by decide +kernel

theorem test_meets_ResponseBuiltAndOffered : (Answer.okay (List.replicate 1000 0)).result.length ≤ 1000
    ∧ State.reset.config.managementType ≠ 0x8100 := by decide +kernel

theorem test_meets_OwnerRequestsGuarded :
    meets .halt 0x30 [] 0 id nothing = true
      ∧ (let slot := slotFor 0x30 [] 0 1 0
        let s := { owning slot with agent := { (owning slot).agent with replay := some ⟨0, 0x30, .wrongState⟩ } }
        serviceOpen s = true ∧ slotRow slot = .halt ∧ (headerRefusal (requestOf slot)).isNone = true
          ∧ ownerCheck (requestOf slot) s = true
          ∧ (requestOf slot).sequence ≠ s.agent.session.lastSequence + 1
          ∧ (requestOf slot).sequence = s.agent.session.lastSequence ∧ (requestOf slot).code = 0x30
          ∧ (owning slot).agent.replay = none)
      ∧ (requestOf (slotFor 0x30 [] 1 2 0)).session ≠ (owning (slotFor 0x30 [] 1 2 0)).agent.session.number
      ∧ (.halt ∈ ownerOnlyRows)
      ∧ meets .resetTraffic 0x05 [] 0 id nothing = true ∧ meets .resetTraffic 0x05 [0, 0] 0 id nothing = true
      ∧ meets .commit 0x23 [0] 0 id nothing = true ∧ meets .cancelCommit 0x24 [0] 0 id nothing = true
      ∧ meets .halt 0x30 [0] 0 id nothing = true ∧ meets .resume 0x31 [0] 0 id nothing = true
      ∧ meets .readCountersClear 0x40 [] 1 id nothing = true ∧ meets .renew 0x51 [0, 0, 0] 0 id nothing = true
      ∧ meets .closeSession 0x52 [0] 0 id nothing = true := by decide +kernel

theorem test_meets_ReadsAnswered :
    meets .identify 0x01 [] 0 id nothing = true ∧ meets .readStatus 0x04 [] 0 id nothing = true
      ∧ meets .readConfig 0x02 [0x60] 0 id (fun _ => configIdOf 0x60 == some .noticeEnable) = true
      ∧ meets .readConfig 0x02 [0xFF] 0 id nothing = true
      ∧ meets .readConfig 0x02 [0x00] 0 id (fun _ => (configIdOf 0).isNone) = true
      ∧ meets .readMatch 0x10 [56, 8] 0 id nothing = true ∧ meets .readMatch 0x10 [57, 8] 0 id nothing = true
      ∧ meets .readProgram 0x20 [0, 31, 1] 0 id nothing = true ∧ meets .readProgram 0x20 [1, 24, 8] 0 id nothing = true
      ∧ meets .readProgram 0x20 [2, 0, 1] 0 id nothing = true ∧ meets .readProgram 0x20 [1, 25, 8] 0 id nothing = true
      ∧ meets .readCounters 0x40 [0x32] 0 id (fun _ => groupOf 0x32 == some .agent) = true
      ∧ meets .readCounters 0x40 [0x19] 0 id (fun _ => (groupOf 0x19).isNone) = true
      ∧ meets .identify 0x01 [0] 0 id nothing = true ∧ meets .readStatus 0x04 [0] 0 id nothing = true
      ∧ meets .readConfig 0x02 [] 0 id nothing = true ∧ meets .readMatch 0x10 [0] 0 id nothing = true
      ∧ meets .readProgram 0x20 [0, 0] 0 id nothing = true ∧ meets .readCounters 0x40 [0, 0] 0 id nothing = true
      ∧ meets .openSession 0x50 [0, 0, 0] 0 id nothing = true := by decide +kernel

theorem test_meets_PlainItemsStored :
    meets .writeConfig 0x03 [0x00, 1] 0 id (fun _ => (configIdOf 0).isNone) = true
      ∧ meets .writeConfig 0x03 [] 0 id (fun s => (s.agent.fifo.map (fun slot => (requestOf slot).code)) == [0x03]) = true
      ∧ meets .writeConfig 0x03 [0x10, 2] 0 id nothing = true ∧ meets .writeConfig 0x03 [0x20, 2] 0 id nothing = true
      ∧ meets .writeNoticeEnableSet 0x03 [0x60, 0, 0] 0 id (fun _ => (configIdOf 0x60).any (fun item => item.size == 1)) = true
      ∧ meets .writeSyncOutEnable 0x03 [0x23, 0] 0 id nothing = true ∧ meets .writeSyncOutEnable 0x03 [0x23, 2] 0 id nothing = true
      ∧ meets .writeStationAddress 0x03 [0x01, 2, 0, 0, 0, 0, 1] 0 id nothing = true
      ∧ meets .writeStationAddress 0x03 [0x01, 3, 0, 0, 0, 0, 1] 0 id nothing = true
      ∧ meets .writeManagementType 0x03 [0x02, 0x06, 0x00] 0 id nothing = true
      ∧ meets .writeManagementType 0x03 [0x02, 0x05, 0xFF] 0 id nothing = true
      ∧ meets .writeManagementType 0x03 [0x02, 0x81, 0x00] 0 id nothing = true
      ∧ meets .writeDefaultAction 0x03 [0x30, 1, 8, 2] 0 id (fun _ => actionBytes ⟨.discard, .fromPriority, .step⟩ == [1, 8, 2]) = true
      ∧ meets .writeDefaultAction 0x03 [0x30, 1, 9, 2] 0 id (fun _ => (actionOf [1, 9, 2]).isNone) = true
      ∧ meets .writeQuota 0x03 [0x48, 2, 0] 0 id (fun _ => numberOf [2, 0] == 512) = true
      ∧ meets .writeQuota 0x03 [0x58, 2, 1] 0 id (fun _ => numberOf [2, 1] == 513) = true
      ∧ meets .writeNoticeEnableSet 0x03 [0x60, 127] 0 id nothing = true
      ∧ meets .writeNoticeEnableSet 0x03 [0x60, 128] 0 id nothing = true := by decide +kernel

theorem test_meets_TrackerItemsStoredInOff :
    meets .writeTrackerItem 0x03 [0x12, 16] 0 (tracking lockedTracker) (fun s => s.tracker.state != .off) = true
      ∧ meets .writeTrackerItem 0x03 [0x11, 1] 0 id (fun s => s.tracker.state == .off) = true
      ∧ meets .writeTrackerItem 0x03 [0x11, 2] 0 id (fun s => s.tracker.state == .off) = true
      ∧ meets .writeTrackerItem 0x03 [0x12, 16] 0 id (fun s => s.tracker.state == .off) = true
      ∧ meets .writeTrackerItem 0x03 [0x12, 3] 0 id (fun s => s.tracker.state == .off) = true
      ∧ meets .writeTrackerItem 0x03 [0x13, 128] 0 id (fun s => s.tracker.state == .off) = true
      ∧ meets .writeTrackerItem 0x03 [0x13, 0] 0 id (fun s => s.tracker.state == .off) = true
      ∧ meets .writeTrackerItem 0x03 [0x14, 15] 0 id (fun s => s.tracker.state == .off) = true
      ∧ meets .writeTrackerItem 0x03 [0x14, 16] 0 id (fun s => s.tracker.state == .off) = true
      ∧ meets .writeTrackerItem 0x03 [0x15, 0, 0, 0x03, 0xE8] 0 id (fun _ => numberOf [0, 0, 0x03, 0xE8] == 1000) = true
      ∧ meets .writeTrackerItem 0x03 [0x15, 0, 0, 0x03, 0xE7] 0 id (fun _ => numberOf [0, 0, 0x03, 0xE7] == 999) = true
      ∧ meets .writeTrackerItem 0x03 [0x16, 0x07, 0x73, 0x59, 0x40] 0 id
        (fun _ => numberOf [0x07, 0x73, 0x59, 0x40] == 125000000) = true
      ∧ meets .writeTrackerItem 0x03 [0x16, 0x07, 0x73, 0x59, 0x41] 0 id
        (fun _ => numberOf [0x07, 0x73, 0x59, 0x41] == 125000001) = true := by decide +kernel

theorem test_meets_TrackerEnableWritten :
    meets .trackerEnableOn 0x03 [0x10, 1] 0 id nothing = true
      ∧ meets .trackerEnableOff 0x03 [0x10, 0] 0 id (fun s => s.tracker.state == .off) = true
      ∧ meets .trackerEnableOff 0x03 [0x10, 0] 0 (tracking acquiringTracker) (fun s => s.tracker.state == .acquiring) = true
      ∧ meets .trackerEnableOff 0x03 [0x10, 0] 0 (tracking lockedTracker)
        (fun s => s.tracker.state.isLocked && !s.sequencer.state.follows) = true
      ∧ meets .trackerEnableOff 0x03 [0x10, 0] 0 (fun s => sequencing .halted (tracking lockedTracker s))
        (fun s => s.tracker.state.isLocked && s.sequencer.state.follows) = true := by decide +kernel

theorem test_meets_SequencerItemsWritten :
    meets .sequencerEnableOn 0x03 [0x20, 1] 0 id nothing = true
      ∧ meets .sequencerEnableOff 0x03 [0x20, 0] 0 id (fun s => !s.sequencer.state.follows) = true
      ∧ meets .sequencerEnableOff 0x03 [0x20, 0] 0 (sequencing .rejoining) (fun s => s.sequencer.state.follows) = true
      ∧ meets .writeFreeGateSet 0x03 [0x21, 1, 0xFF] 0 id (fun s => !s.sequencer.state.follows) = true
      ∧ meets .writeFreeGateSet 0x03 [0x22, 1, 0xFF] 0 (sequencing .running) (fun s => s.sequencer.state.follows) = true
      ∧ meets .writeFreeGateSet 0x03 [0x22, 2, 0] 0 id (fun _ => numberOf [2, 0] == 512) = true := by decide +kernel

/-- A record of the Match Table, and one whose class is none. -/
def matchBytes : List Byte := matchRecordBytes MatchEntry.powerOn
def badMatchBytes : List Byte := matchBytes.set 23 9

theorem test_meets_MatchEntriesWritten :
    meets .writeMatch 0x11 [63] 0 id nothing = true
      ∧ meets .writeMatch 0x11 ([63, 1] ++ matchBytes) 0 id (fun _ => readMatchRecord matchBytes matches .ok _) = true
      ∧ meets .writeMatch 0x11 ([63, 2] ++ matchBytes) 0 id nothing = true
      ∧ meets .writeMatch 0x11 ([0, 1] ++ matchBytes ++ [0]) 0 id nothing = true
      ∧ meets .writeMatch 0x11 ([0, 2] ++ matchBytes ++ badMatchBytes) 0 id (fun _ => readMatchRecord badMatchBytes matches .error 8)
        = true := by decide +kernel

/-- A program entry record, and one whose end offset is 0. -/
def entryBytes : List Byte := entryRecordBytes (plan.entry 1)
def badEntryBytes : List Byte := (entryBytes.set 7 0).set 8 0

/-- A commit is pending. -/
def committed (s : State) : State := { s with programs := { s.programs with commitPending := true } }

theorem test_meets_StagedBankWritten :
    meets .writeProgram 0x21 [] 0 committed (fun s => s.programs.commitPending) = true
      ∧ meets .writeProgram 0x21 [31] 0 id (fun s => !s.programs.commitPending) = true
      ∧ meets .writeProgram 0x21 ([31, 1] ++ entryBytes) 0 id
        (fun s => !s.programs.commitPending && readEntryRecord entryBytes matches .ok _) = true
      ∧ meets .writeProgram 0x21 ([30, 4] ++ entryBytes) 0 id nothing = true
      ∧ meets .writeProgram 0x21 ([0, 1] ++ entryBytes ++ [0]) 0 id nothing = true
      ∧ meets .writeProgram 0x21 ([0, 2] ++ entryBytes ++ badEntryBytes) 0 id
        (fun _ => readEntryRecord badEntryBytes matches .error 4) = true
      ∧ meets .writeProgramHeader 0x22 [1, 0, 0, 0, 0] 0 committed (fun s => s.programs.commitPending) = true
      ∧ meets .writeProgramHeader 0x22 [1, 0, 0, 0] 0 id (fun s => !s.programs.commitPending) = true
      ∧ meets .writeProgramHeader 0x22 [2, 0, 8, 0, 255] 0 id (fun s => !s.programs.commitPending) = true := by decide +kernel

/-- The bank of section 2.8 whose period is 0 is staged. -/
def faulty (s : State) : State :=
  { s with programs := { s.programs with bank1 := { plan with header := ⟨0, #v[0, 8, 0, 0]⟩ } } }

theorem test_meets_CommitAndCancel :
    meets .commit 0x23 [] 0 committed (fun s => s.programs.commitPending) = true
      ∧ meets .commit 0x23 [] 0 faulty
        (fun s => !s.programs.commitPending && validate s.programs.stagedBank == some ⟨.badPeriod, 0, 0⟩) = true
      ∧ meets .commit 0x23 [] 0 (sequencing .running)
        (fun s => !s.programs.commitPending && s.programs.stagedBank.wellFormed && s.sequencer.state.follows) = true
      ∧ meets .commit 0x23 [] 0 id
        (fun s => !s.programs.commitPending && s.programs.stagedBank.wellFormed && !s.sequencer.state.follows) = true
      ∧ meets .cancelCommit 0x24 [] 0 committed (fun s => s.programs.commitPending) = true
      ∧ meets .cancelCommit 0x24 [] 0 id (fun s => !s.programs.commitPending) = true := by decide +kernel

theorem test_meets_HaltAndResume :
    meets .halt 0x30 [] 0 (sequencing .running) (fun s => s.sequencer.state == .running) = true
      ∧ meets .halt 0x30 [] 0 (sequencing .rejoining) (fun s => s.sequencer.state != .running) = true
      ∧ meets .resume 0x31 [] 0 (sequencing .halted) (fun s => s.sequencer.state == .halted) = true
      ∧ meets .resume 0x31 [] 0 (sequencing .rejoining) (fun s => s.sequencer.state != .halted) = true := by decide +kernel

theorem test_meets_CountersClearedAndSaturating :
    meets .readCountersClear 0x40 [0x28] 1 id (fun _ => groupOf 0x28 == some (.queue .b 8)) = true
      ∧ meets .readCountersClear 0x40 [0x29] 1 id (fun _ => (groupOf 0x29).isNone) = true
      ∧ (4294967294#32).toNat < 4294967295 ∧ (4294967295#32).toNat = 4294967295 := by decide +kernel

/-- The session has ended. -/
def ended (s : State) : State := endSession s

theorem test_meets_SessionOpened :
    let legal : Slot := slotFor 0x50 [0, 4, 0x93, 0xE0] 1 0 0
    let s := owning legal
    serviceOpen s = true ∧ slotRow legal = .openSession ∧ (headerRefusal (requestOf legal)).isNone = true
      ∧ numberOf (requestOf legal).args = 300000 ∧ (requestOf legal).args.length = 4
      ∧ (requestOf legal).source.getLsbD 40 = false ∧ s.agent.session.isOpen = true
      ∧ (ended s).agent.session.isOpen = false ∧ serviceOpen (ended s) = true ∧ (ended s).agent.fifo = [legal]
      ∧ numberOf [0, 0, 3, 231] = 999 ∧ numberOf [0, 4, 0x93, 0xE1] = 300001
      ∧ slotRow (slotFor 0x50 [0, 0, 3, 231] 1 0 0) = .openSession
      ∧ (requestOf { legal with source := 0x010000000000#48 }).source.getLsbD 40 = true
      ∧ slotRow { legal with source := 0x010000000000#48 } = .openSession := by decide +kernel

theorem test_meets_SessionRenewedOrClosed :
    meets .renew 0x51 [0, 0, 3, 232] 0 id (fun _ => numberOf [0, 0, 3, 232] == 1000) = true
      ∧ meets .renew 0x51 [0, 0, 0, 0] 0 id nothing = true
      ∧ meets .renew 0x51 [0, 0, 0, 1] 0 id nothing = true
      ∧ meets .closeSession 0x52 [] 0 id nothing = true := by decide +kernel

theorem test_meets_LeaseExpires :
    let s := { owning (ownSlot 0x30 []) with time := ticks 3750000000 }
    s.inReset = false ∧ s.agent.session.isOpen = true ∧ s.agent.session.leaseWait = some s.time
      ∧ State.reset.agent.session.leaseWait ≠ some State.reset.time := by decide +kernel

theorem test_meets_NoticesRaisedAndOffered :
    let s := owning (ownSlot 0x30 [])
    let n : Notice := ⟨.linkChange .b .down, 0, 0⟩
    let full : State := { s with notices := ⟨List.replicate 8 n, 0, true⟩ }
    State.reset.agent.session.isOpen = false ∧ s.agent.session.isOpen = true
      ∧ s.config.noticeEnable.getLsbD (n.detail.kind - 1) = true
      ∧ 8 ≤ full.notices.records.length ∧ s.notices.records.length < 8
      ∧ full.notices.records = n :: List.replicate 7 n ∧ full.config.managementType ≠ 0x8100
      ∧ admissionVerdict full.agent.session.ownerPort queueM 64 full = none
      ∧ admissionVerdict .a queueM 64 { full with pool := { full.pool with freeRecords := [] } } ≠ none := by decide +kernel

theorem test_meets_RecordsReadBack : (plan.entry 1).wellFormed = true
    ∧ (readEntryRecord entryBytes matches .ok _) = true := by decide +kernel

/-- A reader refuses at a field. -/
def failsAt {α : Type} (k : Nat) (o : Except Nat α) : Bool :=
  match o with
  | .error f => f == k
  | .ok _ => false

/-- Records that fail at each field, and values at the ends of the ranges (R110, R32, R184). -/
theorem test_meets_RecordsReadBack_fields :
    (∀ x ∈ [(0, 0, 2), (1, 1, 3), (4, 14, 2), (5, 17, 2), (6, 19, 2), (7, 22, 2), (8, 23, 9), (9, 24, 3)],
      failsAt x.1 (readMatchRecord (matchBytes.set x.2.1 (BitVec.ofNat 8 x.2.2))) = true)
      ∧ failsAt 6 (readMatchRecord ((matchBytes.set 19 1).set 20 0x10)) = true
      ∧ (readMatchRecord (((matchBytes.set 19 1).set 20 0x0F).set 21 0xFF) matches .ok _) = true
      ∧ (readMatchRecord ((matchBytes.set 17 1).set 18 0xFF) matches .ok _) = true
      ∧ (∀ x ∈ [(0, 0, 3), (1, 1, 2), (2, 3, 2), (3, 5, 2), (4, 6, 2), (4, 6, 0), (5, 9, 2), (5, 9, 0), (6, 11, 2), (6, 11, 0), (6, 12, 32)],
        failsAt x.1 (readEntryRecord (entryBytes.set x.2.1 (BitVec.ofNat 8 x.2.2))) = true)
      ∧ failsAt 4 (readEntryRecord ((entryBytes.set 7 4).set 8 0)) = true
      ∧ (readEntryRecord ((entryBytes.set 7 3).set 8 0xFF) matches .ok _) = true
      ∧ (readEntryRecord (entryBytes.set 12 31) matches .ok _) = true
      ∧ (∀ x ∈ [(4, 6, 1), (5, 9, 1), (6, 11, 1)],
        failsAt x.1 (readEntryRecord ((entryRecordBytes ⟨⟨0, 0⟩, true, .tail⟩).set x.2.1 (BitVec.ofNat 8 x.2.2))) = true)
      ∧ (readEntryRecord (entryRecordBytes (plan.entry 0)) matches .ok _) = true
      ∧ (readEntryRecord (entryRecordBytes (plan.entry 2)) matches .ok _) = true := by decide +kernel

/-! Each invariant holds at some state that takes a step to a next state: the reset state, for all but the last. -/

theorem test_meets_StepKeeps : (∃ t, step State.reset = .next t) ∧ (∃ t, step held = .next t) := ⟨⟨_, rfl⟩, ⟨_, rfl⟩⟩

theorem test_meets_StepKeeps_reset : State.reset.cellsCanonical ∧ State.reset.lockPinFollows ∧ State.reset.syncOutFollows
    ∧ State.reset.presentationsAgree ∧ State.reset.capacitiesKept ∧ State.reset.sessionSound := by
  refine ⟨reset_memory_wf, rfl, rfl, ?_, ?_, ?_⟩
  · intro p; cases p <;> rfl
  · exact ⟨Nat.zero_le _, Nat.zero_le _, Nat.zero_le _, rfl⟩
  · exact ⟨rfl, rfl, rfl, rfl⟩

theorem test_meets_StepKeeps_items : State.reset.itemsInRange ∧ State.reset.programsSound ∧ State.reset.downPortsQuiet := by
  refine ⟨⟨by decide +kernel, by decide +kernel⟩, ⟨by decide +kernel, by decide +kernel, by decide +kernel, by decide +kernel⟩, ?_⟩
  intro p _
  cases p <;> exact ⟨rfl, rfl⟩

theorem test_meets_StepKeepsCadence : State.reset.itemsInRange ∧ State.reset.resetHeld ∧ State.reset.followsLock
    ∧ State.reset.trackerSound ∧ State.reset.sequencerSound := by
  refine ⟨⟨by decide +kernel, by decide +kernel⟩, (fun h => nomatch h), ⟨by decide +kernel, by decide +kernel⟩,
    ⟨⟨rfl, rfl, rfl, rfl, rfl, rfl⟩, ⟨rfl, fun _ h => nomatch h⟩, (fun h => nomatch h), by decide +kernel⟩,
    ⟨by decide +kernel, ⟨rfl, rfl, rfl, rfl⟩, rfl⟩⟩

/-- The tracker of section 1.10 meets what the steps keep of a tracker under lock, and that of section 1.9 of one that acquires. -/
theorem test_trackers_sound : lockedTracker.soundUnder (ConfigItems.powerOn lowStraps)
    ∧ lockedTracker.historySound (ConfigItems.powerOn lowStraps) ∧ acquiringTracker.soundUnder (ConfigItems.powerOn lowStraps)
    ∧ acquiringTracker.historySound (ConfigItems.powerOn lowStraps)
    ∧ (tracking acquiringTracker (clocked 13625010)).acquiresInTime := by
  refine ⟨⟨rfl, rfl, ?_, 125000, rfl, ?_, ?_, ?_⟩, ⟨rfl, ?_⟩, ⟨?_, rfl, rfl, rfl, rfl⟩, ⟨rfl, ?_⟩, fun _ => ⟨?_, fun _ => .inl ?_⟩⟩
  all_goals decide +kernel

theorem test_meets_StepKeepsPoolWhole : State.reset.poolWhole ∧ ∃ t, step State.reset = .next t := ⟨reset_poolWhole, ⟨_, rfl⟩⟩

theorem test_meets_StepKeepsResetHeld : held.resetHeld ∧ held.inReset = true ∧ ∃ t, step held = .next t :=
  ⟨fun _ => rfl, rfl, ⟨_, rfl⟩⟩

end Sys2Proof.Tests
end

