-- ==== Sys2Proof/Proofs/Outputs.lean ====
section
/-! PROOF. LOCK, SYNC_OUT and the two records of each presentation (R22, R60, R79): what each operation keeps of them, and from that every step.
An update of fields that none of these reads keeps each as it stands, which is `⟨id, id, id, id⟩`. -/

namespace Sys2Proof.Machine

/-- From s to t, LOCK goes on following the tracker (R22), SYNC_OUT its wait (R60), the two records of each presentation go on agreeing (R79),
and a part that is out of reset stays so. -/
structure State.keepsOutputs (s t : State) : Prop where
  lock : s.lockPinFollows → t.lockPinFollows
  sync : s.syncOutFollows → t.syncOutFollows
  agree : s.presentationsAgree → t.presentationsAgree
  released : s.inReset = false → t.inReset = false

theorem State.keepsOutputs.refl (s : State) : s.keepsOutputs s := ⟨id, id, id, id⟩

theorem State.keepsOutputs.trans {s t u : State} (h : s.keepsOutputs t) (k : t.keepsOutputs u) : s.keepsOutputs u :=
  ⟨k.lock ∘ h.lock, k.sync ∘ h.sync, k.agree ∘ h.agree, k.released ∘ h.released⟩

/-- An operation runs after a change that keeps the outputs. -/
theorem State.keepsOutputs.after {s t u : State} (k : t.keepsOutputs u) (h : s.keepsOutputs t) : s.keepsOutputs u :=
  h.trans k

/-! ### Traffic and notices -/

/-- Traffic and notices that leave the schedulers' presentations alone keep the outputs. -/
theorem State.sameButNotices.keepsOutputs {s t : State} (h : s.sameButNotices t)
    (hp : ∀ p, (t.sched p).presentation = (s.sched p).presentation) : s.keepsOutputs t := by
  obtain ⟨-, pins, -, -, -, tracker, sequencer, -⟩ := h.fields
  constructor
  · simp [State.lockPinFollows, pins, tracker]
  · simp [State.syncOutFollows, pins, sequencer]
  · simp [State.presentationsAgree, hp, sequencer]
  · simp [State.inReset, pins]

theorem evaluate_keepsOutputs (p : Port) (s : State) : s.keepsOutputs (evaluate p s) :=
  (evaluate_same p s).toNotices.keepsOutputs fun r => evaluate_presentation p r s

theorem raiseNotice_keepsOutputs (d : NoticeDetail) (c : Count) (s : State) : s.keepsOutputs (raiseNotice d c s) :=
  (raiseNotice_same d c s).keepsOutputs fun r => raiseNotice_presentation r d c s

theorem offerAllNotices_keepsOutputs (s : State) : s.keepsOutputs (offerAllNotices s) :=
  (offerAllNotices_same s).keepsOutputs fun r => offerAllNotices_presentation r s

theorem offerForwarded_keepsOutputs (p : Port) (q : QueueName) (b : List Byte) (s : State) :
    s.keepsOutputs (offerForwarded p q b s) :=
  (offerForwarded_same p q b s).toNotices.keepsOutputs fun r => offerForwarded_presentation p r q b s

theorem respond_keepsOutputs (r : Request) (a : Answer) (s : State) : s.keepsOutputs (respond r a s) :=
  (respond_same r a s).toNotices.keepsOutputs fun p => offerResponse_presentation r.port p _ s

/-- Freed records leave both schedulers' presentations alone. -/
theorem State.freesAt.presentations {s t : State} {p : Port} {freed : List Handle} (h : s.freesAt t p freed) (r : Port) :
    (t.sched r).presentation = (s.sched r).presentation := by
  by_cases hr : r = p
  · rw [hr]
    exact h.presentation
  · have : r = p.opposite := by cases r <;> cases p <;> first | rfl | exact absurd rfl hr
    rw [this, h.others]

theorem abortTransmission_keepsOutputs (p : Port) (s : State) : s.keepsOutputs (abortTransmission p s) :=
  (abortTransmission_same p s).toNotices.keepsOutputs (abortTransmission_frees p s).1.presentations

theorem flushPort_keepsOutputs (p : Port) (s : State) : s.keepsOutputs (flushPort p s) :=
  (flushPort_same p s).toNotices.keepsOutputs (flushPort_frees p s).1.presentations

theorem trafficAbort_keepsOutputs (p : Port) (s : State) : s.keepsOutputs (trafficAbort p s) := by
  unfold trafficAbort
  split
  · exact (abortTransmission_keepsOutputs p _).after ⟨id, id, id, id⟩
  · exact .refl s

theorem discardInFlight_keepsOutputs (p : Port) (s : State) : s.keepsOutputs (discardInFlight p s) := by
  unfold discardInFlight
  split
  · exact (abortTransmission_keepsOutputs p _).after ⟨id, id, id, id⟩
  · exact .refl s

theorem completeTransmission_keepsOutputs (p : Port) (f : InFlight) (s : State) :
    s.keepsOutputs (completeTransmission p f s) := by
  have freed : s.keepsOutputs ((freeRecord f.record
      (s.countPort p (fun c => { c with transmitted := Count.up c.transmitted }))).setInFlight p none) :=
    State.sameButNotices.keepsOutputs rfl fun r => by cases p <;> cases r <;> rfl
  unfold completeTransmission
  refine .trans ?_ (evaluate_keepsOutputs p _)
  split
  · exact freed.trans (offerAllNotices_keepsOutputs _)
  · exact freed

/-! ### The walk -/

theorem presentBoth_keepsOutputs (x : Pair Presentation) (s : State) : s.keepsOutputs (presentBoth x s) where
  lock := by simp [State.lockPinFollows]
  sync := by simp [State.syncOutFollows]
  agree h r := presentBoth_presentation r x s h
  released := by simp [State.inReset]

theorem swapBanks_keepsOutputs (o : Occasion) (c : Count) (s : State) : s.keepsOutputs (swapBanks o c s) :=
  (raiseNotice_keepsOutputs _ c _).after ⟨id, id, id, id⟩

theorem applyPendingCommit_keepsOutputs (o : Occasion) (c : Count) (s : State) :
    s.keepsOutputs (applyPendingCommit o c s) := by
  unfold applyPendingCommit
  split
  · exact swapBanks_keepsOutputs o c s
  · exact .refl s

theorem leaveEntry_keepsOutputs (s : State) : s.keepsOutputs (leaveEntry s) := by
  rw [leaveEntry_eq]
  exact ⟨id, id, id, id⟩

/-- A walk left for another state: its entry is left, then a presentation delivered (R40, R52). -/
theorem leaveWalk_keepsOutputs (x : Pair Presentation) (st : SequencerState) (c : Count) (s : State) :
    s.keepsOutputs (presentBoth x { leaveEntry s with
      sequencer := { (leaveEntry s).sequencer with state := st, cycle := c } }) :=
  (leaveEntry_keepsOutputs s).trans ((presentBoth_keepsOutputs x _).after ⟨id, id, id, id⟩)

theorem sequencerLockLoss_keepsOutputs (s : State) : s.keepsOutputs (sequencerLockLoss s) := by
  unfold sequencerLockLoss
  split
  · exact (leaveWalk_keepsOutputs _ .free 0 s).trans (applyPendingCommit_keepsOutputs _ _ _)
  · exact .refl s

theorem sequencerDisable_keepsOutputs (s : State) : s.keepsOutputs (sequencerDisable s) := by
  have left := (leaveWalk_keepsOutputs (freePresentation s) .stopped s.sequencer.cycle s).trans
    (applyPendingCommit_keepsOutputs .stoppedEntry s.sequencer.cycle _)
  unfold sequencerDisable
  cases s.sequencer.state with
  | stopped => exact .refl s
  | free => exact ⟨id, id, id, id⟩
  | running | halted | rejoining => simpa [freePresentation] using left

theorem sequencerEnable_keepsOutputs (s : State) : s.keepsOutputs (sequencerEnable s) := by
  unfold sequencerEnable
  split <;> exact ⟨id, id, id, id⟩

theorem freeGatesWritten_keepsOutputs (s : State) : s.keepsOutputs (freeGatesWritten s) := by
  unfold freeGatesWritten
  cases s.sequencer.state with
  | stopped | free => exact presentBoth_keepsOutputs _ s
  | running | halted | rejoining => exact .refl s

theorem sequencerHalt_keepsOutputs (s : State) : s.keepsOutputs (sequencerHalt s) :=
  leaveWalk_keepsOutputs _ .halted (leaveEntry s).sequencer.cycle s

theorem enterEntry_keepsOutputs (i : EntryIndex) (m : Time) (s : State) : s.keepsOutputs (enterEntry i m s) :=
  ⟨id, id, id, id⟩

theorem moveTo_keepsOutputs (i : EntryIndex) (m : Time) (s : State) : s.keepsOutputs (moveTo i m s) :=
  (enterEntry_keepsOutputs i m s).trans (presentBoth_keepsOutputs _ _)

theorem endCycle_keepsOutputs (s : State) : s.keepsOutputs (endCycle s) := by
  rw [endCycle_eq]
  split
  · exact leaveEntry_keepsOutputs s
  · exact (leaveEntry_keepsOutputs s).trans ⟨id, id, id, id⟩

/-- A pulse raises SYNC_OUT and starts its wait together (R60). -/
theorem startPulse_keepsOutputs (s : State) : s.keepsOutputs (startPulse s) := by
  unfold startPulse
  split
  · exact ⟨id, fun _ => rfl, id, id⟩
  · exact .refl s

theorem startCycle_keepsOutputs (origin : Time) (ref : Nat) (s : State) : s.keepsOutputs (startCycle origin ref s) := by
  have running : s.keepsOutputs (cycleRunning origin ref s) :=
    (applyPendingCommit_keepsOutputs .cycleStart (nextCycle s.sequencer) s).trans ⟨id, id, id, id⟩
  exact (running.trans (presentBoth_keepsOutputs _ _)).trans (startPulse_keepsOutputs _)

theorem takeBoundary_keepsOutputs (origin : Time) (ref : Nat) (s : State) :
    s.keepsOutputs (takeBoundary origin ref s) := by
  unfold takeBoundary
  cases s.sequencer.state with
  | stopped => exact .refl s
  | free | rejoining => exact startCycle_keepsOutputs origin ref s
  | running => exact (endCycle_keepsOutputs s).trans (startCycle_keepsOutputs origin ref _)
  | halted => exact ⟨id, id, id, id⟩

theorem stepInEntry_keepsOutputs (t : Time) (settle : BitVec 8) (next : EntryIndex) (s : State) :
    s.keepsOutputs (stepInEntry t settle next s) := by
  unfold stepInEntry
  simp only
  split
  · exact moveTo_keepsOutputs next t s
  · split <;> exact ⟨id, id, id, id⟩

theorem takeStepMark_keepsOutputs (t : Time) (s : State) : s.keepsOutputs (takeStepMark t s) := by
  have stray : s.keepsOutputs (strayStep s) := ⟨id, id, id, id⟩
  unfold takeStepMark
  cases s.sequencer.state with
  | stopped | free | halted | rejoining => exact stray
  | running =>
    cases s.currentEntry.ending with
    | timed | tail => exact stray
    | step off settle next =>
      simp only
      split
      · exact stray
      · exact stepInEntry_keepsOutputs t settle next s

theorem entryDeadlineTaken_keepsOutputs (s : State) : s.keepsOutputs (entryDeadlineTaken s) := by
  unfold entryDeadlineTaken
  cases s.currentEntry.ending with
  | timed off next => exact moveTo_keepsOutputs next s.time s
  | step off settle next =>
    refine .trans ?_ (moveTo_keepsOutputs next s.time _)
    split <;> exact ⟨id, id, id, id⟩
  | tail => exact ⟨id, id, id, id⟩

theorem settleTaken_keepsOutputs (s : State) : s.keepsOutputs (settleTaken s) := by
  unfold settleTaken
  split
  · exact moveTo_keepsOutputs _ s.time s
  · exact ⟨id, id, id, id⟩

/-! ### The tracker -/

/-- A tracker under lock exactly when the one before was keeps the outputs (R22). -/
theorem setTracker_keepsOutputs (s : State) (t : Tracker) (h : t.state.isLocked = s.tracker.state.isLocked) :
    s.keepsOutputs (s.setTracker t) := ⟨fun hl => hl.trans h.symm, id, id, id⟩

/-- A lock loss drives LOCK low as it unlocks the tracker (R16, R22). -/
theorem lockLoss_keepsOutputs (c : LossCause) (s : State) : s.keepsOutputs (lockLoss c s) := by
  refine .trans ⟨fun _ => ?_, ?_, ?_, ?_⟩ (sequencerLockLoss_keepsOutputs _)
  · cases c <;> simp [State.lockPinFollows, Tracker.cleared, LossCause.stateAfter, TrackerState.isLocked]
  · simp [State.syncOutFollows]
  · exact fun h p => (raiseNotice_presentation p _ _ _).trans (by simpa [State.sched] using h p)
  · simp [State.inReset]

/-- The tracker locks and LOCK is driven high together (R8, R22). -/
theorem acquireLock_keepsOutputs (t : Time) (s : State) : s.keepsOutputs (acquireLock t s) :=
  (takeBoundary_keepsOutputs t _ _).after ((raiseNotice_keepsOutputs _ _ _).after ⟨fun _ => rfl, id, id, id⟩)

theorem firstMark_keepsOutputs (t : Time) (s : State) (h : s.tracker.state = .seeking) :
    s.keepsOutputs (firstMark t s) :=
  .trans (setTracker_keepsOutputs s _ (by simp [h, TrackerState.isLocked])) ⟨id, id, id, id⟩

theorem markAcquiring_keepsOutputs (t : Time) (s : State) : s.keepsOutputs (markAcquiring t s) := by
  unfold markAcquiring
  simp only
  split
  · exact ⟨id, id, id, id⟩
  · split
    · exact (acquireLock_keepsOutputs t _).after ⟨id, id, id, id⟩
    · exact ⟨id, id, id, id⟩

/-- The tracker moves within LOCKED and HOLDOVER, may raise a notice, and delivers a boundary (R11, R12). -/
theorem movedBoundary_keepsOutputs {P : Prop} [Decidable P] {d : NoticeDetail} {c : Count} {origin : Time} {ref : Nat}
    {s v : State} (h : s.keepsOutputs v) :
    s.keepsOutputs (takeBoundary origin ref (if P then raiseNotice d c v else v)) := by
  refine .trans ?_ (takeBoundary_keepsOutputs _ _ _)
  split
  · exact h.trans (raiseNotice_keepsOutputs d c v)
  · exact h

theorem acceptMark_keepsOutputs (t : Time) (ref : Nat) (s : State) (h : s.tracker.state.isLocked = true) :
    s.keepsOutputs (acceptMark t ref s) := by
  refine movedBoundary_keepsOutputs (.trans (t := s.setTracker _) ?_ ⟨id, id, id, id⟩)
  exact setTracker_keepsOutputs s _ h.symm

theorem carryCycle_keepsOutputs (ref : Nat) (s : State) (h : s.tracker.state.isLocked = true) :
    s.keepsOutputs (carryCycle ref s) := by
  refine movedBoundary_keepsOutputs (v := s.setTracker _) ?_
  exact setTracker_keepsOutputs s _ h.symm

theorem markInWindow_keepsOutputs (t : Time) (s : State) (h : s.tracker.state.isLocked = true) :
    s.keepsOutputs (markInWindow t s) := by
  unfold markInWindow
  split
  · exact .refl s
  · simp only
    split
    · exact ⟨id, id, id, id⟩
    · split
      · exact .refl s
      · exact acceptMark_keepsOutputs t _ s h

theorem takeCycleMark_keepsOutputs (t : Time) (s : State) : s.keepsOutputs (takeCycleMark t s) := by
  unfold takeCycleMark
  cases h : s.tracker.state with
  | off => exact .refl s
  | seeking => exact firstMark_keepsOutputs t s h
  | acquiring => exact markAcquiring_keepsOutputs t s
  | locked | holdover => exact markInWindow_keepsOutputs t s (by rw [h]; rfl)

theorem windowCloseTaken_keepsOutputs (ref : Nat) (s : State) (h : s.tracker.state.isLocked = true) :
    s.keepsOutputs (windowCloseTaken ref s) := by
  unfold windowCloseTaken
  simp only
  split
  · exact (carryCycle_keepsOutputs ref (s.countTracker _) h).after ⟨id, id, id, id⟩
  · exact (lockLoss_keepsOutputs .missing _).after ⟨id, id, id, id⟩

theorem trackerDisturbed_keepsOutputs (c : LossCause) (s : State) : s.keepsOutputs (trackerDisturbed c s) := by
  unfold trackerDisturbed
  cases h : s.tracker.state with
  | off | seeking => exact .refl s
  | acquiring => exact setTracker_keepsOutputs s _ (by rw [h]; rfl)
  | locked | holdover => exact lockLoss_keepsOutputs c s

theorem trackerEnable_keepsOutputs (s : State) : s.keepsOutputs (trackerEnable s) := by
  unfold trackerEnable
  cases h : s.tracker.state with
  | off => exact setTracker_keepsOutputs s _ (by rw [h]; rfl)
  | seeking | acquiring | locked | holdover => exact .refl s

theorem trackerDisable_keepsOutputs (s : State) : s.keepsOutputs (trackerDisable s) := by
  unfold trackerDisable
  cases h : s.tracker.state with
  | off => exact .refl s
  | seeking | acquiring => exact setTracker_keepsOutputs s _ (by rw [h]; rfl)
  | locked | holdover => exact lockLoss_keepsOutputs .disabled s

/-! ### Ports, classification and links -/

theorem deliverMark_keepsOutputs (k : MarkKind) (p : Port) (s : State) : s.keepsOutputs (deliverMark k p s) := by
  unfold deliverMark
  cases k with
  | noMark => exact .refl s
  | cycle =>
    simp only
    split
    · exact takeCycleMark_keepsOutputs s.time s
    · exact ⟨id, id, id, id⟩
  | step =>
    simp only
    split
    · exact takeStepMark_keepsOutputs s.time s
    · exact ⟨id, id, id, id⟩

theorem selectAction_keepsOutputs (p : Port) (f : FrameFields) (s : State) : s.keepsOutputs (selectAction p f s).2 := by
  unfold selectAction
  split <;> exact ⟨id, id, id, id⟩

theorem classifyOrdinary_keepsOutputs (p : Port) (bytes : List Byte) (s : State) :
    s.keepsOutputs (classifyOrdinary p bytes s) := by
  have marked := (selectAction_keepsOutputs p (frameFields bytes) s).trans
    (deliverMark_keepsOutputs (selectAction p (frameFields bytes) s).1.mark p _)
  unfold classifyOrdinary
  simp only
  split
  · exact marked.trans (offerForwarded_keepsOutputs _ _ bytes _)
  · exact marked

theorem pushRequest_keepsOutputs (slot : Slot) (s : State) : s.keepsOutputs (pushRequest slot s) := by
  unfold pushRequest
  split <;> exact ⟨id, id, id, id⟩

theorem judgeFrame_keepsOutputs (p : Port) (s : State) : s.keepsOutputs (judgeFrame p s) := by
  unfold judgeFrame classify
  simp only
  split
  · exact ⟨id, id, id, id⟩
  · split
    · exact ⟨id, id, id, id⟩
    · split
      · exact ⟨id, id, id, id⟩
      · split
        · exact (pushRequest_keepsOutputs _ _).after ⟨id, id, id, id⟩
        · exact (classifyOrdinary_keepsOutputs p _ _).after ⟨id, id, id, id⟩

theorem linkUpEvent_keepsOutputs (p : Port) (s : State) : s.keepsOutputs (linkUpEvent p s) :=
  (raiseNotice_keepsOutputs _ _ _).after ((evaluate_keepsOutputs p (s.setLink p .up)).after ⟨id, id, id, id⟩)

theorem linkDownEvent_keepsOutputs (p : Port) (s : State) : s.keepsOutputs (linkDownEvent p s) := by
  have flushed : s.keepsOutputs (flushPort p (discardInFlight p (releaseReceiver p (s.setLink p .down)))) :=
    (flushPort_keepsOutputs p _).after ((discardInFlight_keepsOutputs p _).after ⟨id, id, id, id⟩)
  unfold linkDownEvent
  refine .trans ?_ (raiseNotice_keepsOutputs _ _ _)
  split
  · exact flushed.trans (trackerDisturbed_keepsOutputs .linkDown _)
  · exact flushed

theorem sampleLink_keepsOutputs (p : Port) (s : State) : s.keepsOutputs (sampleLink p s) := by
  unfold sampleLink
  split
  · exact linkUpEvent_keepsOutputs p s
  · exact .refl s

/-- A part that leaves reset has both outputs low, the tracker OFF and no pulse, and presents alike in both records (R1, R38, R63). -/
theorem released_keepsOutputs (straps : Straps) (s : State) :
    s.keepsOutputs (sampleLinks (State.powerOn straps true s.pins.phy s.tieCount s.pending)) :=
  ((sampleLink_keepsOutputs .b _).after (sampleLink_keepsOutputs .a _)).after
    ⟨fun _ => rfl, fun _ => rfl, fun _ p => by cases p <;> rfl, fun _ => rfl⟩

theorem trafficReset_keepsOutputs (s : State) : s.keepsOutputs (trafficReset s) := by
  have flushed : s.keepsOutputs (flushPort .b (flushPort .a (trafficAbort .b (trafficAbort .a s)))) :=
    (flushPort_keepsOutputs .b _).after ((flushPort_keepsOutputs .a _).after
      ((trafficAbort_keepsOutputs .b _).after (trafficAbort_keepsOutputs .a s)))
  unfold trafficReset
  simp only
  split
  · exact flushed.trans (trackerDisturbed_keepsOutputs .trafficReset _)
  · exact flushed

/-! ### Requests -/

/-- The state that executing a request gives, before the response. -/
def Verdict.state : Verdict → State
  | .answer s _ => s
  | .closing s _ => s
  | .silent s => s

/-- Executing a request keeps the outputs. -/
def RequestKeepsOutputs (run : Request → State → Verdict) : Prop := ∀ (r : Request) (s : State), s.keepsOutputs (run r s).state

theorem State.keepsOutputs.answered {s t : State} {a : Answer} (h : s.keepsOutputs t) :
    s.keepsOutputs (Verdict.answer t a).state := h

/-- Whatever the next state is, the outputs are kept. -/
def State.keepsOutputsIn (s : State) (o : Host.Outcome State Fault Refusal) : Prop := ∀ t, o = .next t → s.keepsOutputs t

theorem State.keepsOutputs.next {s t : State} (h : s.keepsOutputs t) : s.keepsOutputsIn (.next t) := by
  rintro _ ⟨⟩
  exact h

theorem takeRequest_keepsOutputs (row : Instr) (handle : Slot → State → State) (s : State)
    (h : ∀ (slot : Slot) (s : State), s.keepsOutputs (handle slot s)) : s.keepsOutputsIn (.next (takeRequest row handle s)) := by
  refine State.keepsOutputs.next ?_
  unfold takeRequest
  split
  · split
    · exact .refl s
    · split
      · exact (h _ _).after ⟨id, id, id, id⟩
      · exact .refl s
  · exact .refl s

theorem settleVerdict_keepsOutputs (r : Request) (s : State) (v : Verdict) (h : s.keepsOutputs v.state) :
    s.keepsOutputs (settleVerdict r v) := by
  cases v with
  | answer t a => exact h.trans (respond_keepsOutputs r a t)
  | closing t a => exact h.trans ((respond_keepsOutputs r a (endSession t)).after ⟨id, id, id, id⟩)
  | silent t => exact h

theorem serveRequest_keepsOutputs {judge : Request → State → Verdict} (h : RequestKeepsOutputs judge) (r : Request)
    (s : State) : s.keepsOutputs (serveRequest judge r s) := by
  unfold serveRequest
  split
  · exact respond_keepsOutputs r _ s
  · exact settleVerdict_keepsOutputs r s _ (h r s)

/-- The owner check and the sequence check leave the outputs to the request (R135, R136). -/
theorem judgeOwner_keepsOutputs {run : Request → State → Verdict} (h : RequestKeepsOutputs run) :
    RequestKeepsOutputs (judgeOwner run) := by
  intro r s
  have ran : s.keepsOutputs (run r (restartLease s)).state := (h r _).after ⟨id, id, id, id⟩
  unfold judgeOwner
  simp only
  split
  · split
    · split <;> rename_i hr <;> rw [hr] at ran
      · exact ran.trans ⟨id, id, id, id⟩
      · exact ran.trans ⟨id, id, id, id⟩
      · exact ran
    · split <;> exact ⟨id, id, id, id⟩
  · exact .refl s

theorem takeOpen_keepsOutputs {run : Request → State → Verdict} (row : Instr) (h : RequestKeepsOutputs run) (s : State) :
    s.keepsOutputsIn (takeOpen row run s) :=
  takeRequest_keepsOutputs row _ s fun slot => serveRequest_keepsOutputs h (requestOf slot)

theorem takeOwned_keepsOutputs {run : Request → State → Verdict} (row : Instr) (h : RequestKeepsOutputs run) (s : State) :
    s.keepsOutputsIn (takeOwned row run s) :=
  takeRequest_keepsOutputs row _ s fun slot => serveRequest_keepsOutputs (judgeOwner_keepsOutputs h) (requestOf slot)

/-- A judgement of the arguments' length refuses, or leaves the outputs to the request (R183). -/
theorem withArguments_keepsOutputs {run : Request → State → Verdict} (n : Nat) (h : RequestKeepsOutputs run) :
    RequestKeepsOutputs (withArguments n run) := by
  intro r s
  unfold withArguments
  split
  · exact h r s
  · exact .refl s

theorem withoutArguments_keepsOutputs {run : Request → State → Verdict} (h : RequestKeepsOutputs run) :
    RequestKeepsOutputs (withoutArguments run) := by
  intro r s
  unfold withoutArguments
  split
  · exact h r s
  · exact .refl s

theorem unlessLocked_keepsOutputs {run : Request → State → Verdict} (h : RequestKeepsOutputs run) :
    RequestKeepsOutputs (unlessLocked run) := by
  intro r s
  unfold unlessLocked
  split
  · exact .refl s
  · exact h r s

theorem writeConfigWith_keepsOutputs {write : ConfigId → List Byte → State → Verdict}
    (h : ∀ (item : ConfigId) (value : List Byte) (s : State), s.keepsOutputs (write item value s).state) :
    RequestKeepsOutputs (writeConfigWith write) := by
  intro r s
  unfold writeConfigWith
  split
  · exact .refl s
  · split
    · exact .refl s
    · split
      · exact h _ _ s
      · exact .refl s

theorem writeEntries_keepsOutputs {α : Type} (size n : Nat) (read : List Byte → Except Nat α)
    (write : List α → Nat → State → State) (h : ∀ (es : List α) (i : Nat) (s : State), s.keepsOutputs (write es i s)) :
    RequestKeepsOutputs (writeEntries size n read write) := by
  intro r s
  unfold writeEntries
  simp only
  split
  · exact .refl s
  · split
    · split
      · split
        · exact .refl s
        · exact h _ _ s
      · exact .refl s
    · exact .refl s

theorem runReadConfig_keepsOutputs : RequestKeepsOutputs runReadConfig := by
  intro r s
  unfold runReadConfig
  simp only
  split
  · exact .refl s
  · split <;> exact .refl s

theorem runReadMatch_keepsOutputs : RequestKeepsOutputs runReadMatch := by
  intro r s
  unfold runReadMatch
  simp only
  split <;> exact .refl s

theorem runReadProgram_keepsOutputs : RequestKeepsOutputs runReadProgram := by
  intro r s
  unfold runReadProgram
  simp only
  split
  · exact .refl s
  · split
    · split <;> exact .refl s
    · exact .refl s

theorem runReadCounters_keepsOutputs : RequestKeepsOutputs runReadCounters := by
  intro r s
  unfold runReadCounters
  simp only
  split <;> exact .refl s

theorem runReadCountersClear_keepsOutputs : RequestKeepsOutputs runReadCountersClear := by
  intro r s
  unfold runReadCountersClear
  simp only
  split <;> exact ⟨id, id, id, id⟩

theorem runOpenSession_keepsOutputs : RequestKeepsOutputs runOpenSession := by
  intro r s
  unfold runOpenSession
  simp only
  split
  · exact .refl s
  · split
    · exact .refl s
    · split <;> exact ⟨id, id, id, id⟩

theorem runRenew_keepsOutputs : RequestKeepsOutputs runRenew := by
  intro r s
  unfold runRenew
  simp only
  split
  · exact .refl s
  · exact (offerAllNotices_keepsOutputs _).after ⟨id, id, id, id⟩

theorem runCommit_keepsOutputs : RequestKeepsOutputs runCommit := by
  intro r s
  unfold runCommit commitBank
  simp only
  split
  · exact .refl s
  · split
    · exact .refl s
    · split
      · exact ⟨id, id, id, id⟩
      · exact swapBanks_keepsOutputs .immediate _ s

theorem runCancelCommit_keepsOutputs : RequestKeepsOutputs runCancelCommit := by
  intro r s
  unfold runCancelCommit
  split
  · exact (raiseNotice_keepsOutputs _ _ _).after ⟨id, id, id, id⟩
  · exact .refl s

theorem runHalt_keepsOutputs : RequestKeepsOutputs runHalt := by
  intro r s
  unfold runHalt
  split
  · exact sequencerHalt_keepsOutputs s
  · exact .refl s

theorem runResume_keepsOutputs : RequestKeepsOutputs runResume := by
  intro r s
  unfold runResume
  split <;> exact ⟨id, id, id, id⟩

theorem runResetTraffic_keepsOutputs : RequestKeepsOutputs runResetTraffic := by
  intro r s
  unfold runResetTraffic
  split
  · exact (trafficReset_keepsOutputs s).answered
  · exact .refl s

theorem runResetFull_keepsOutputs : RequestKeepsOutputs runResetFull := fun _ s => released_keepsOutputs s.straps s

theorem runWriteMatch_keepsOutputs : RequestKeepsOutputs runWriteMatch :=
  writeEntries_keepsOutputs _ _ _ _ fun _ _ _ => ⟨id, id, id, id⟩

theorem runWriteProgram_keepsOutputs : RequestKeepsOutputs runWriteProgram :=
  writeEntries_keepsOutputs _ _ _ _ fun _ _ _ => ⟨id, id, id, id⟩

theorem runWriteProgramHeader_keepsOutputs : RequestKeepsOutputs runWriteProgramHeader := fun _ _ => ⟨id, id, id, id⟩

/-- An item is stored, and what follows from it keeps the outputs. -/
theorem written_keepsOutputs {s t : State} {c : ConfigItems} (h : (s.setConfig c).keepsOutputs t) :
    s.keepsOutputs (written t).state := h.after ⟨id, id, id, id⟩

theorem runTrackerEnableOn_keepsOutputs (s : State) : s.keepsOutputs (runTrackerEnableOn s).state :=
  written_keepsOutputs (trackerEnable_keepsOutputs (s.setConfig _))

theorem runTrackerEnableOff_keepsOutputs (s : State) : s.keepsOutputs (runTrackerEnableOff s).state :=
  written_keepsOutputs (trackerDisable_keepsOutputs (s.setConfig _))

theorem runSequencerEnableOn_keepsOutputs (s : State) : s.keepsOutputs (runSequencerEnableOn s).state :=
  written_keepsOutputs (sequencerEnable_keepsOutputs (s.setConfig _))

theorem runSequencerEnableOff_keepsOutputs (s : State) : s.keepsOutputs (runSequencerEnableOff s).state :=
  written_keepsOutputs (sequencerDisable_keepsOutputs (s.setConfig _))

theorem runWriteTrackerItem_keepsOutputs (item : ConfigId) (value : List Byte) (s : State) :
    s.keepsOutputs (runWriteTrackerItem item value s).state := by
  unfold runWriteTrackerItem
  split
  · exact .refl s
  · split <;> exact ⟨id, id, id, id⟩

theorem runWriteFreeGateSet_keepsOutputs (item : ConfigId) (value : List Byte) (s : State) :
    s.keepsOutputs (runWriteFreeGateSet item value s).state := by
  unfold runWriteFreeGateSet
  split
  · exact (freeGatesWritten_keepsOutputs _).after ⟨id, id, id, id⟩
  · exact .refl s

theorem runWriteSyncOutEnable_keepsOutputs (value : List Byte) (s : State) :
    s.keepsOutputs (runWriteSyncOutEnable value s).state := by
  unfold runWriteSyncOutEnable
  split <;> exact ⟨id, id, id, id⟩

theorem runWriteStationAddress_keepsOutputs (value : List Byte) (s : State) :
    s.keepsOutputs (runWriteStationAddress value s).state := by
  unfold runWriteStationAddress
  split <;> exact ⟨id, id, id, id⟩

theorem runWriteManagementType_keepsOutputs (value : List Byte) (s : State) :
    s.keepsOutputs (runWriteManagementType value s).state := by
  unfold runWriteManagementType
  split <;> exact ⟨id, id, id, id⟩

theorem runWriteDefaultAction_keepsOutputs (value : List Byte) (s : State) :
    s.keepsOutputs (runWriteDefaultAction value s).state := by
  unfold runWriteDefaultAction
  split <;> exact ⟨id, id, id, id⟩

theorem runWriteQuota_keepsOutputs (item : ConfigId) (value : List Byte) (s : State) :
    s.keepsOutputs (runWriteQuota item value s).state := by
  unfold runWriteQuota
  split
  · split <;> exact ⟨id, id, id, id⟩
  · exact .refl s

theorem runWriteNoticeEnableSet_keepsOutputs (value : List Byte) (s : State) :
    s.keepsOutputs (runWriteNoticeEnableSet value s).state := by
  unfold runWriteNoticeEnableSet
  split <;> exact ⟨id, id, id, id⟩

/-! ### Commands -/

theorem outsideReset_keepsOutputs {s : State} {f : State → State} (h : s.keepsOutputs (f s)) :
    s.keepsOutputs (outsideReset s f) := by
  unfold outsideReset
  split
  · exact .refl s
  · exact h

theorem execResetNRelease_keepsOutputs (straps : Straps) (s : State) :
    s.keepsOutputsIn (execResetNRelease straps s) := by
  refine State.keepsOutputs.next ?_
  split
  · exact released_keepsOutputs straps s
  · exact .refl s

theorem execLinkUp_keepsOutputs (p : Port) (s : State) : s.keepsOutputsIn (execLinkUp p s) := by
  refine State.keepsOutputs.next ((outsideReset_keepsOutputs ?_).after ⟨id, id, id, id⟩)
  split
  · exact .refl _
  · exact linkUpEvent_keepsOutputs p _

theorem execLinkDown_keepsOutputs (p : Port) (s : State) : s.keepsOutputsIn (execLinkDown p s) := by
  refine State.keepsOutputs.next ((outsideReset_keepsOutputs ?_).after ⟨id, id, id, id⟩)
  split
  · exact .refl _
  · exact linkDownEvent_keepsOutputs p _

theorem execReceptionStart_keepsOutputs (p : Port) (s : State) : s.keepsOutputsIn (execReceptionStart p s) := by
  refine State.keepsOutputs.next (outsideReset_keepsOutputs ?_)
  split <;> exact ⟨id, id, id, id⟩

theorem execReceptionCompletion_keepsOutputs (p : Port) (frame : List Byte) (receiveError : Bool) (s : State) :
    s.keepsOutputsIn (execReceptionCompletion p frame receiveError s) := by
  refine State.keepsOutputs.next (outsideReset_keepsOutputs ?_)
  split
  · have judged : s.keepsOutputs (judgeFrame p (stageBytes p frame receiveError s)) :=
      (judgeFrame_keepsOutputs p _).after ⟨id, id, id, id⟩
    exact judged.trans ⟨id, id, id, id⟩
  · exact .refl s

theorem execTransmissionCompletion_keepsOutputs (p : Port) (s : State) :
    s.keepsOutputsIn (execTransmissionCompletion p s) := by
  refine State.keepsOutputs.next (outsideReset_keepsOutputs ?_)
  split
  · split
    · exact completeTransmission_keepsOutputs p _ s
    · exact .refl s
  · exact .refl s

theorem execAcquireTimeout_keepsOutputs (s : State) : s.keepsOutputsIn (execAcquireTimeout s) := by
  refine State.keepsOutputs.next (outsideReset_keepsOutputs ?_)
  split
  · rename_i h
    exact setTracker_keepsOutputs s _ (by rw [h.1]; rfl)
  · exact .refl s

theorem execWindowClose_keepsOutputs (s : State) : s.keepsOutputsIn (execWindowClose s) := by
  refine State.keepsOutputs.next (outsideReset_keepsOutputs ?_)
  split
  · rename_i h
    split
    · exact windowCloseTaken_keepsOutputs _ s h.1
    · exact .refl s
  · exact .refl s

theorem execEntryDeadline_keepsOutputs (s : State) : s.keepsOutputsIn (execEntryDeadline s) := by
  refine State.keepsOutputs.next (outsideReset_keepsOutputs ?_)
  split
  · exact entryDeadlineTaken_keepsOutputs s
  · exact .refl s

theorem execSettleDue_keepsOutputs (s : State) : s.keepsOutputsIn (execSettleDue s) := by
  refine State.keepsOutputs.next (outsideReset_keepsOutputs ?_)
  split
  · exact settleTaken_keepsOutputs s
  · exact .refl s

/-- The end of a pulse lowers SYNC_OUT and ends its wait together (R60). -/
theorem execSyncOutPulseEnd_keepsOutputs (s : State) : s.keepsOutputsIn (execSyncOutPulseEnd s) := by
  refine State.keepsOutputs.next (outsideReset_keepsOutputs ?_)
  split
  · exact ⟨id, fun _ => rfl, id, id⟩
  · exact .refl s

theorem execLeaseExpiry_keepsOutputs (s : State) : s.keepsOutputsIn (execLeaseExpiry s) := by
  refine State.keepsOutputs.next (outsideReset_keepsOutputs ?_)
  split <;> exact ⟨id, id, id, id⟩

/-- Every command but the assertion of RESET_N keeps the outputs. -/
theorem exec_keepsOutputs (i : Instr) (s : State) (hi : i ≠ .resetNAssert) : s.keepsOutputsIn (exec i s) := by
  cases i with
  | resetNAssert => exact absurd rfl hi
  | resetNRelease straps => exact execResetNRelease_keepsOutputs straps s
  | linkUp p => exact execLinkUp_keepsOutputs p s
  | linkDown p => exact execLinkDown_keepsOutputs p s
  | receptionStart p => exact execReceptionStart_keepsOutputs p s
  | receptionCompletion p frame receiveError => exact execReceptionCompletion_keepsOutputs p frame receiveError s
  | transmissionCompletion p => exact execTransmissionCompletion_keepsOutputs p s
  | acquireTimeout => exact execAcquireTimeout_keepsOutputs s
  | windowClose => exact execWindowClose_keepsOutputs s
  | entryDeadline => exact execEntryDeadline_keepsOutputs s
  | settleDue => exact execSettleDue_keepsOutputs s
  | syncOutPulseEnd => exact execSyncOutPulseEnd_keepsOutputs s
  | leaseExpiry => exact execLeaseExpiry_keepsOutputs s
  | shortFrameDropped => exact takeRequest_keepsOutputs _ _ s fun _ _ => ⟨id, id, id, id⟩
  | badCode => exact takeOpen_keepsOutputs _ (fun _ _ => .refl _) s
  | identify => exact takeOpen_keepsOutputs _ (withoutArguments_keepsOutputs fun _ _ => .refl _) s
  | readStatus => exact takeOpen_keepsOutputs _ (withoutArguments_keepsOutputs fun _ _ => .refl _) s
  | readConfig => exact takeOpen_keepsOutputs _ (withArguments_keepsOutputs 1 runReadConfig_keepsOutputs) s
  | readMatch => exact takeOpen_keepsOutputs _ (withArguments_keepsOutputs 2 runReadMatch_keepsOutputs) s
  | readProgram => exact takeOpen_keepsOutputs _ (withArguments_keepsOutputs 3 runReadProgram_keepsOutputs) s
  | readCounters => exact takeOpen_keepsOutputs _ (withArguments_keepsOutputs 1 runReadCounters_keepsOutputs) s
  | openSession => exact takeOpen_keepsOutputs _ (withArguments_keepsOutputs 4 runOpenSession_keepsOutputs) s
  | writeConfig => exact takeOwned_keepsOutputs _ (writeConfigWith_keepsOutputs fun _ _ _ => .refl _) s
  | trackerEnableOn =>
    exact takeOwned_keepsOutputs _ (writeConfigWith_keepsOutputs fun _ _ => runTrackerEnableOn_keepsOutputs) s
  | trackerEnableOff =>
    exact takeOwned_keepsOutputs _ (writeConfigWith_keepsOutputs fun _ _ => runTrackerEnableOff_keepsOutputs) s
  | writeTrackerItem => exact takeOwned_keepsOutputs _ (writeConfigWith_keepsOutputs runWriteTrackerItem_keepsOutputs) s
  | sequencerEnableOn =>
    exact takeOwned_keepsOutputs _ (writeConfigWith_keepsOutputs fun _ _ => runSequencerEnableOn_keepsOutputs) s
  | sequencerEnableOff =>
    exact takeOwned_keepsOutputs _ (writeConfigWith_keepsOutputs fun _ _ => runSequencerEnableOff_keepsOutputs) s
  | writeFreeGateSet => exact takeOwned_keepsOutputs _ (writeConfigWith_keepsOutputs runWriteFreeGateSet_keepsOutputs) s
  | writeSyncOutEnable =>
    exact takeOwned_keepsOutputs _ (writeConfigWith_keepsOutputs fun _ => runWriteSyncOutEnable_keepsOutputs) s
  | writeStationAddress =>
    exact takeOwned_keepsOutputs _ (writeConfigWith_keepsOutputs fun _ => runWriteStationAddress_keepsOutputs) s
  | writeManagementType =>
    exact takeOwned_keepsOutputs _ (writeConfigWith_keepsOutputs fun _ => runWriteManagementType_keepsOutputs) s
  | writeDefaultAction =>
    exact takeOwned_keepsOutputs _ (writeConfigWith_keepsOutputs fun _ => runWriteDefaultAction_keepsOutputs) s
  | writeQuota => exact takeOwned_keepsOutputs _ (writeConfigWith_keepsOutputs runWriteQuota_keepsOutputs) s
  | writeNoticeEnableSet =>
    exact takeOwned_keepsOutputs _ (writeConfigWith_keepsOutputs fun _ => runWriteNoticeEnableSet_keepsOutputs) s
  | resetTraffic => exact takeOwned_keepsOutputs _ (withArguments_keepsOutputs 1 runResetTraffic_keepsOutputs) s
  | resetFull => exact takeOwned_keepsOutputs _ runResetFull_keepsOutputs s
  | writeMatch => exact takeOwned_keepsOutputs _ runWriteMatch_keepsOutputs s
  | writeProgram => exact takeOwned_keepsOutputs _ (unlessLocked_keepsOutputs runWriteProgram_keepsOutputs) s
  | writeProgramHeader =>
    exact takeOwned_keepsOutputs _
      (unlessLocked_keepsOutputs (withArguments_keepsOutputs 5 runWriteProgramHeader_keepsOutputs)) s
  | commit => exact takeOwned_keepsOutputs _ (withoutArguments_keepsOutputs runCommit_keepsOutputs) s
  | cancelCommit => exact takeOwned_keepsOutputs _ (withoutArguments_keepsOutputs runCancelCommit_keepsOutputs) s
  | halt => exact takeOwned_keepsOutputs _ (withoutArguments_keepsOutputs runHalt_keepsOutputs) s
  | resume => exact takeOwned_keepsOutputs _ (withoutArguments_keepsOutputs runResume_keepsOutputs) s
  | readCountersClear =>
    exact takeOwned_keepsOutputs _ (withArguments_keepsOutputs 1 runReadCountersClear_keepsOutputs) s
  | renew => exact takeOwned_keepsOutputs _ (withArguments_keepsOutputs 4 runRenew_keepsOutputs) s
  | closeSession => exact takeOwned_keepsOutputs _ (withoutArguments_keepsOutputs fun _ _ => .refl _) s

theorem tick_keepsOutputs (s : State) : s.keepsOutputs (tick s) := by
  rcases tick_cases s with ⟨_, e⟩ | ⟨_, _, _, e⟩ | ⟨_, _, e⟩ | ⟨_, _, _, _, e⟩ <;> rw [e] <;> exact ⟨id, id, id, id⟩

/-! ### In reset -/

/-- While RESET_N is low no request is taken (R95). -/
theorem takeRequest_inReset {s : State} (h : s.inReset = true) (row : Instr) (handle : Slot → State → State) :
    takeRequest row handle s = s := by
  have low : s.pins.resetN = false := by simpa [State.inReset] using h
  simp [takeRequest, serviceOpen, low]

theorem outsideReset_inReset {s : State} (h : s.inReset = true) (f : State → State) : outsideReset s f = s :=
  if_pos h

/-- While RESET_N is low a command other than the reset pin's own changes the level of a PHY indication at most (R95). -/
theorem exec_inReset {s : State} (h : s.inReset = true) (i : Instr) :
    i = .resetNAssert ∨ (∃ straps, i = .resetNRelease straps)
      ∨ ∃ phy, exec i s = .next { s with pins := { s.pins with phy := phy } } := by
  cases i with
  | resetNAssert => exact .inl rfl
  | resetNRelease straps => exact .inr (.inl ⟨straps, rfl⟩)
  | linkUp p => exact .inr (.inr ⟨s.pins.phy.set p .up, congrArg _ (outsideReset_inReset (s := s.setPhy p .up) h _)⟩)
  | linkDown p => exact .inr (.inr ⟨s.pins.phy.set p .down, congrArg _ (outsideReset_inReset (s := s.setPhy p .down) h _)⟩)
  | receptionStart | receptionCompletion | transmissionCompletion | acquireTimeout | windowClose | entryDeadline
  | settleDue | syncOutPulseEnd | leaseExpiry => exact .inr (.inr ⟨s.pins.phy, congrArg _ (outsideReset_inReset h _)⟩)
  | _ => exact .inr (.inr ⟨s.pins.phy, congrArg _ (takeRequest_inReset h _ _)⟩)

theorem State.resetHeld.outputs_low {s : State} (held : s.resetHeld) (h : s.inReset = true) :
    s.pins.lock = false ∧ s.pins.syncOut = false := by
  rw [held h]
  exact ⟨rfl, rfl⟩

/-- A command that ends with RESET_N low leaves both outputs low, when they were low with it (R22, R60, R95). -/
theorem exec_outputs_low {i : Instr} {s t : State} (h : exec i s = .next t) (ht : t.inReset = true)
    (low : s.inReset = true → s.pins.lock = false ∧ s.pins.syncOut = false) :
    t.pins.lock = false ∧ t.pins.syncOut = false := by
  by_cases hi : i = .resetNAssert
  · subst hi
    cases h
    exact ⟨rfl, rfl⟩
  · have hs : s.inReset = true := by
      by_contra hn
      simp [(exec_keepsOutputs i s hi t h).released (by simpa using hn)] at ht
    rcases exec_inReset hs i with e | ⟨straps, e⟩ | ⟨phy, e⟩
    · exact absurd e hi
    · subst e
      simp only [exec, execResetNRelease, hs, if_true, Host.Outcome.next.injEq] at h
      have out : (State.powerOn straps true s.pins.phy s.tieCount s.pending).inReset = false := rfl
      have : t.inReset = false := h ▸ ((sampleLink_keepsOutputs .b _).after (sampleLink_keepsOutputs .a _)).released out
      simp [this] at ht
    · rw [e] at h
      cases h
      exact low hs

/-- Settles O53: each command keeps the outputs through its operations, and in reset no command raises them. -/
theorem stepKeepsOutputs : Obligations.StepKeepsOutputs := by
  intro s t h
  unfold step at h
  split at h
  · cases h
    have k := tick_keepsOutputs s
    refine ⟨k.lock, k.sync, k.agree, fun held ht => ?_⟩
    have hs : s.inReset = true := by
      by_contra hn
      simp [k.released (by simpa using hn)] at ht
    rw [show tick s = s from if_pos hs]
    exact held.outputs_low hs
  · rename_i c rest _
    by_cases hc : c = .resetNAssert
    · subst hc
      cases h
      exact ⟨fun _ => rfl, fun _ => rfl, fun _ p => by cases p <;> rfl, fun _ _ => ⟨rfl, rfl⟩⟩
    · have k := (exec_keepsOutputs c _ hc t h).after (s := s) ⟨id, id, id, id⟩
      exact ⟨k.lock, k.sync, k.agree, fun held ht => exec_outputs_low h ht held.outputs_low⟩

end Sys2Proof.Machine
end

