-- ==== Sys2Proof/Proofs/TrackerEnable.lean ====
section
/-! PROOF. The rows of the tracker enable (R5, R6): which requests are of them, and what a lock loss leaves of the pins and the counters (R16,
R22, R52, R59). -/

namespace Sys2Proof.Machine

/-! ### The requests of the rows -/

/-- The rows of requests other than WRITE_CONFIG, and of short requests (R133, section 12.1). -/
def otherRows : List Instr := .shortFrameDropped :: (openRows ++ ownerOnlyRows.drop 13)

/-- A request of any other row is a WRITE_CONFIG, and its arguments name the row (section 12.4). -/
theorem writeConfigRow_of_slotRow {slot : Slot} (h : slotRow slot ∉ otherRows) :
    writeConfigRow (requestOf slot).args = slotRow slot := by
  have rows : slotRow slot ∈ writeConfigRow (requestOf slot).args :: otherRows := by
    unfold slotRow requestRow
    simp only
    repeat' apply mem_of_both
    all_goals first | exact List.mem_cons_self | exact List.mem_cons_of_mem _ (by decide)
  exact ((List.mem_cons.mp rows).resolve_right h).symm

/-- The rows of the tracker enable are writes of its item with one byte (log entry 8). -/
theorem writeConfigRow_trackerEnable {args : List Byte}
    (h : writeConfigRow args = .trackerEnableOn ∨ writeConfigRow args = .trackerEnableOff) :
    ∃ id value, args = id :: value ∧ configIdOf id.toNat = some .trackerEnable
      ∧ value.length = ConfigId.trackerEnable.size := by
  cases args with
  | nil => simp [writeConfigRow] at h
  | cons id value =>
    cases hid : configIdOf id.toNat with
    | none => simp [writeConfigRow, hid] at h
    | some item =>
      cases item with
      | trackerEnable =>
        have bytes : value = [1] ∨ value = [0] := by
          by_contra hv
          obtain ⟨h1, h0⟩ := not_or.mp hv
          simp only [writeConfigRow, hid, if_neg h1, if_neg h0] at h
          simp at h
        exact ⟨id, value, rfl, hid, by rcases bytes with rfl | rfl <;> rfl⟩
      | sequencerEnable =>
        simp only [writeConfigRow, hid] at h
        split at h
        · simp at h
        · split at h <;> simp at h
      | _ => simp [writeConfigRow, hid] at h

/-- A request of a row of the tracker enable passes the judgements of WRITE_CONFIG (R142, R183). -/
theorem writeConfigWith_trackerEnable {slot : Slot}
    (h : slotRow slot = .trackerEnableOn ∨ slotRow slot = .trackerEnableOff) (write : State → Verdict) (s : State) :
    writeConfigWith (fun _ _ s => write s) (requestOf slot) s = write s := by
  have row : writeConfigRow (requestOf slot).args = slotRow slot :=
    writeConfigRow_of_slotRow (by rcases h with h | h <;> rw [h] <;> decide)
  obtain ⟨id, value, args, hid, length⟩ := writeConfigRow_trackerEnable (row ▸ h)
  simp [writeConfigWith, args, hid, length]

/-! ### Lock loss -/

/-- The sequencer's part in a lock loss leaves the pins alone and counts a discarded pending transition (R52, R59). -/
theorem sequencerLockLoss_counts (s : State) :
    (sequencerLockLoss s).pins = s.pins ∧ (sequencerLockLoss s).counters.sequencer = s.lossCounters := by
  unfold sequencerLockLoss State.lossCounters
  by_cases hf : s.sequencer.state.follows = true
  · by_cases hp : s.sequencer.pending = none <;> simp [hf, hp]
  · simp [hf]

/-- Of the pins a lock loss changes LOCK alone (R16, R22), and it counts a discarded pending transition (R52). -/
theorem lockLoss_counts (c : LossCause) (s : State) :
    (lockLoss c s).pins = { s.pins with lock := false } ∧ (lockLoss c s).counters.sequencer = s.lossCounters := by
  unfold lockLoss
  simp only
  refine ⟨(sequencerLockLoss_counts _).1.trans (by simp), (sequencerLockLoss_counts _).2.trans ?_⟩
  simp [State.lossCounters, State.setLock, State.countTracker]

/-! ### The two rows -/

/-- The tracker enable written on (R5). -/
theorem trackerEnable_eq (s : State) : trackerEnable s = { s with
    tracker := if s.tracker.state = .off then ⟨.seeking, [], 0, none, s.tracker.boundary, 0, false, none⟩
      else s.tracker } := by
  unfold trackerEnable
  cases h : s.tracker.state <;> rfl

/-- The tracker enable written off: nothing more in OFF, the tracker cleared before lock, a lock loss under it (R6). -/
theorem trackerDisable_cases (s : State) :
    (s.tracker.state = .off → trackerDisable s = s)
      ∧ (s.tracker.state = .seeking ∨ s.tracker.state = .acquiring →
        trackerDisable s = { s with tracker := ⟨.off, [], 0, none, s.tracker.boundary, 0, false, none⟩ })
      ∧ (s.tracker.state.isLocked = true → trackerDisable s = lockLoss .disabled s) := by
  unfold trackerDisable
  cases h : s.tracker.state <;> simp [TrackerState.isLocked, State.setTracker, Tracker.cleared]

/-- Settles O40: each row runs its own write, and the tracker's state says what that comes to. -/
theorem trackerEnableWritten : Obligations.TrackerEnableWritten := by
  rintro s slot rest r rfl owner
  constructor
  · intro h
    have ⟨_, _, row, _⟩ := h
    have run := writeConfigWith_trackerEnable (.inl row) runTrackerEnableOn (s.owned rest)
    rw [runTrackerEnableOn, trackerEnable_eq] at run
    exact takeOwned_answer h owner run
  · intro h
    have ⟨_, _, row, _⟩ := h
    have run := writeConfigWith_trackerEnable (.inr row) runTrackerEnableOff (s.owned rest)
    let v : State := { s.owned rest with config := { s.config with trackerEnable := false } }
    obtain ⟨off, unlocked, locked⟩ := trackerDisable_cases v
    refine ⟨trackerDisable v, takeOwned_answer h owner run, trackerDisable_cadence v, off, unlocked, fun hl => ?_⟩
    rw [locked hl]
    obtain ⟨tracker, -⟩ := lockLoss_tracker .disabled v
    obtain ⟨pins, cancels⟩ := lockLoss_counts .disabled v
    obtain ⟨sequencer, programs, raised⟩ := lockLoss_raises .disabled v
    exact ⟨rfl, tracker, pins, cancels, lockLoss_groups .disabled v, sequencer, programs, raised⟩

end Sys2Proof.Machine
end

section
/-! PROOF. Validation of a bank (R28 to R31): how a walk can end, what the examination of a walk finds, and the first fault in order. -/

namespace Sys2Proof.Machine

/-! ### Walks through a bank -/

theorem Bank.nextOf_eq_none_iff (b : Bank) (i : EntryIndex) : b.nextOf i = none ↔ (b.entry i).ending = .tail := by
  unfold Bank.nextOf
  split <;> simp [*]

theorem Bank.offsetOf_eq_none_iff (b : Bank) (i : EntryIndex) : b.offsetOf i = none ↔ (b.entry i).ending = .tail := by
  unfold Bank.offsetOf
  split <;> simp [*]

theorem Bank.walks.length_le {b : Bank} {first last : EntryIndex} {walk : List EntryIndex} (h : b.walks first walk last) :
    walk.length ≤ 32 := by
  obtain ⟨-, -, distinct, -⟩ := h
  simpa using distinct.length_le_card

/-- A walk goes on to the next entry when that entry is new and rises. -/
theorem Bank.walks.snoc {b : Bank} {first last next : EntryIndex} {walk : List EntryIndex} (h : b.walks first walk last)
    (new : next ∉ walk) (rises : b.risesTo last next) : b.walks first (walk ++ [next]) next := by
  obtain ⟨head, getLast, distinct, chain⟩ := h
  refine ⟨by simp [head], by simp, by simpa using distinct.concat new, chain.append (.singleton next) ?_⟩
  simp [getLast, rises]

/-- How a walk can end: at a TAIL, before an entry it has passed, or before one whose end offset does not rise. -/
def Bank.walkEnds (b : Bank) (walk : List EntryIndex) (last : EntryIndex) : Prop :=
  (b.entry last).ending = .tail
    ∨ ∃ next, b.nextOf last = some next
      ∧ (next ∈ walk ∨ ∃ x y, b.offsetOf last = some x ∧ b.offsetOf next = some y ∧ y ≤ x)

/-- Every walk goes on to an end: it has at most 32 entries, so it cannot rise to a new one for ever. -/
theorem Bank.walks.end_exists {b : Bank} {first last : EntryIndex} {walk : List EntryIndex} (h : b.walks first walk last) :
    ∃ walk last, b.walks first walk last ∧ b.walkEnds walk last := by
  cases hn : b.nextOf last with
  | none => exact ⟨walk, last, h, .inl ((b.nextOf_eq_none_iff last).mp hn)⟩
  | some next =>
    by_cases passed : next ∈ walk
    · exact ⟨walk, last, h, .inr ⟨next, hn, .inl passed⟩⟩
    by_cases falls : ∃ x y, b.offsetOf last = some x ∧ b.offsetOf next = some y ∧ y ≤ x
    · exact ⟨walk, last, h, .inr ⟨next, hn, .inr falls⟩⟩
    have rises : b.risesTo last next :=
      ⟨hn, fun x y hx hy => Nat.lt_of_not_le fun hyx => falls ⟨x, y, hx, hy, hyx⟩⟩
    have longer := h.snoc passed rises
    have bound := longer.length_le
    exact longer.end_exists
termination_by 32 - walk.length
decreasing_by
  simp only [List.length_append, List.length_singleton] at *
  omega

theorem Bank.walk_from (b : Bank) (first : EntryIndex) : ∃ walk last, b.walks first walk last ∧ b.walkEnds walk last :=
  Bank.walks.end_exists (walk := [first]) (last := first) ⟨rfl, rfl, List.nodup_singleton _, .singleton _⟩

/-! ### The examination of a walk -/

/-- The end offset, if the entry has one, is above that of the entry before it, if there is one (R30). -/
def Bank.rises (b : Bank) (previous : Option Nat) (i : EntryIndex) : Prop :=
  ∀ x y, previous = some x → b.offsetOf i = some y → x < y

theorem walkFault_passed (b : Bank) (k fuel : Nat) {passed : List EntryIndex} (previous : Option Nat) {i : EntryIndex}
    (h : i ∈ passed) : walkFault b k (fuel + 1) passed previous i = some ⟨.noTail, k, i.val⟩ := by
  simp [walkFault, h]

theorem walkFault_falls (b : Bank) (k fuel : Nat) {passed : List EntryIndex} {i : EntryIndex} {x y : Nat} (new : i ∉ passed)
    (hy : b.offsetOf i = some y) (hyx : y ≤ x) :
    walkFault b k (fuel + 1) passed (some x) i = some ⟨.nonIncreasing, k, i.val⟩ := by
  unfold Bank.offsetOf at hy
  cases he : (b.entry i).ending <;> simp_all [walkFault, notIncreasing]

/-- At a new entry that rises the examination goes on with the next one, and is over without a fault at a TAIL. -/
theorem walkFault_rises (b : Bank) (k fuel : Nat) {passed : List EntryIndex} {previous : Option Nat} {i : EntryIndex}
    (new : i ∉ passed) (rises : b.rises previous i) :
    walkFault b k (fuel + 1) passed previous i = (b.nextOf i).bind (walkFault b k fuel (i :: passed) (b.offsetOf i)) := by
  unfold Bank.rises Bank.offsetOf at rises
  unfold Bank.nextOf Bank.offsetOf
  cases he : (b.entry i).ending <;> cases previous <;> simp_all [walkFault, notIncreasing]

/-- The examination follows a walk to its last entry, and goes on from there. -/
theorem walkFault_chain (b : Bank) (k fuel : Nat) (last : EntryIndex) (walk : List EntryIndex) :
    ∀ (i : EntryIndex) (passed : List EntryIndex) (previous : Option Nat), (i :: walk).getLast? = some last →
      (passed.reverse ++ i :: walk).Nodup → (i :: walk).IsChain b.risesTo → b.rises previous i →
      walkFault b k (fuel + (i :: walk).length) passed previous i
        = (b.nextOf last).bind (walkFault b k fuel ((i :: walk).reverse ++ passed) (b.offsetOf last)) := by
  induction walk with
  | nil =>
    intro i passed previous getLast distinct _ rises
    obtain rfl : i = last := by simpa using getLast
    have new : i ∉ passed := fun h => List.disjoint_of_nodup_append distinct (List.mem_reverse.mpr h) List.mem_cons_self
    exact walkFault_rises b k fuel new rises
  | cons j walk ih =>
    intro i passed previous getLast distinct chain rises
    obtain ⟨⟨hn, up⟩, chain⟩ := List.isChain_cons_cons.mp chain
    have new : i ∉ passed := fun h => List.disjoint_of_nodup_append distinct (List.mem_reverse.mpr h) List.mem_cons_self
    have onward := ih j (i :: passed) (b.offsetOf i) (by simpa using getLast) (by simpa using distinct) chain up
    calc walkFault b k (fuel + (i :: j :: walk).length) passed previous i
        = walkFault b k (fuel + (j :: walk).length) (i :: passed) (b.offsetOf i) j := by
          exact (walkFault_rises b k (fuel + (j :: walk).length) new rises).trans (by rw [hn, Option.bind_some])
      _ = _ := by simpa using onward

/-- The examination from a start entry follows every walk from there. -/
theorem Bank.walks.walkFault_eq {b : Bank} {first last : EntryIndex} {walk : List EntryIndex} (h : b.walks first walk last)
    (k : Nat) : walkFault b k 33 [] none first
      = (b.nextOf last).bind (walkFault b k (32 - walk.length + 1) walk.reverse (b.offsetOf last)) := by
  have bound := h.length_le
  obtain ⟨head, getLast, distinct, chain⟩ := h
  obtain ⟨rest, rfl⟩ : ∃ rest, walk = first :: rest := ⟨walk.tail, (List.cons_head?_tail head).symm⟩
  have fuel : 33 = 32 - (first :: rest).length + 1 + (first :: rest).length := by omega
  have along := walkFault_chain b k (32 - (first :: rest).length + 1) last rest first [] none getLast distinct
    chain (fun x y hx => by cases hx)
  rw [← fuel] at along
  simpa using along

theorem Bank.walks.fault_of_tail {b : Bank} {first last : EntryIndex} {walk : List EntryIndex} (h : b.walks first walk last)
    (tail : (b.entry last).ending = .tail) (k : Nat) : walkFault b k 33 [] none first = none := by
  rw [h.walkFault_eq, (b.nextOf_eq_none_iff last).mpr tail, Option.bind_none]

theorem Bank.walks.fault_of_passed {b : Bank} {first last next : EntryIndex} {walk : List EntryIndex}
    (h : b.walks first walk last) (hn : b.nextOf last = some next) (passed : next ∈ walk) (k : Nat) :
    walkFault b k 33 [] none first = some ⟨.noTail, k, next.val⟩ := by
  rw [h.walkFault_eq, hn, Option.bind_some, walkFault_passed _ _ _ _ (List.mem_reverse.mpr passed)]

theorem Bank.walks.fault_of_falls {b : Bank} {first last next : EntryIndex} {walk : List EntryIndex} {x y : Nat}
    (h : b.walks first walk last) (hn : b.nextOf last = some next) (new : next ∉ walk) (hx : b.offsetOf last = some x)
    (hy : b.offsetOf next = some y) (hyx : y ≤ x) (k : Nat) :
    walkFault b k 33 [] none first = some ⟨.nonIncreasing, k, next.val⟩ := by
  rw [h.walkFault_eq, hn, Option.bind_some, hx, walkFault_falls _ _ _ (mt List.mem_reverse.mp new) hy hyx]

/-- No fault is found from an entry just when its walk rises to a TAIL (R24, R30). -/
theorem walkFault_eq_none_iff (b : Bank) (k : Nat) (first : EntryIndex) :
    walkFault b k 33 [] none first = none ↔ b.risesToTail first := by
  constructor
  · intro sound
    obtain ⟨walk, last, h, tail | ⟨next, hn, ends⟩⟩ := b.walk_from first
    · exact ⟨walk, last, h, tail⟩
    by_cases passed : next ∈ walk
    · simp [h.fault_of_passed hn passed k] at sound
    · obtain ⟨x, y, hx, hy, hyx⟩ := ends.resolve_left passed
      simp [h.fault_of_falls hn passed hx hy hyx k] at sound
  · rintro ⟨walk, last, h, tail⟩
    exact h.fault_of_tail tail k

/-! ### The first fault -/

/-- The first position with a result gives it. -/
theorem findSome?_range_of_first {α : Type} {g : Nat → Option α} {n k : Nat} {a : α} (hk : k < n) (ha : g k = some a)
    (first : ∀ j < k, g j = none) : (List.range n).findSome? g = some a := by
  obtain ⟨m, rfl⟩ : ∃ m, n = k + (m + 1) := ⟨n - k - 1, by omega⟩
  have before : (List.range k).findSome? g = none :=
    List.findSome?_eq_none_iff.mpr fun j hj => first j (List.mem_range.mp hj)
  simp [List.range_add, List.range_succ_eq_map, List.findSome?_append, before, ha]

/-- The fault of one start slot (R29). -/
def Header.slotFault (h : Header) (k : Nat) : Option ProgramFault :=
  if 32 ≤ (h.slot k).toNat then some ⟨.badStart, k, (h.slot k).toNat⟩ else none

theorem Header.slotFault_eq_none_iff (h : Header) (k : Nat) : h.slotFault k = none ↔ (h.slot k).toNat < 32 := by
  simp [Header.slotFault]

theorem badStart_eq_findSome? (h : Header) (n : Nat) :
    ∀ position, badStart h n position = (List.range' position n).findSome? h.slotFault := by
  induction n with
  | zero => exact fun _ => rfl
  | succ n ih =>
    intro position
    unfold badStart
    by_cases bad : 32 ≤ (h.slot position).toNat <;> simp [List.range'_succ, Header.slotFault, bad, ih]

/-- The fault of the walk from one start position (R30). -/
def Bank.startFault (b : Bank) (k : Nat) : Option ProgramFault := walkFault b k 33 [] none (b.header.start k)

theorem badWalk_eq_findSome? (b : Bank) (n : Nat) :
    ∀ position, badWalk b n position = (List.range' position n).findSome? b.startFault := by
  induction n with
  | zero => exact fun _ => rfl
  | succ n ih =>
    intro position
    unfold badWalk
    cases found : b.startFault position <;> simp_all [List.range'_succ, Bank.startFault]

theorem validate_badPeriod {b : Bank} (h : b.header.period.toNat < 1 ∨ 4 < b.header.period.toNat) :
    validate b = some ⟨.badPeriod, 0, b.header.period.toNat⟩ := by
  unfold validate
  exact if_pos h

/-- The start slots in use are judged first, then the walks, each by position (R28, R29, R30). -/
theorem validate_of_period {b : Bank} (low : 1 ≤ b.header.period.toNat) (high : b.header.period.toNat ≤ 4) :
    validate b = ((List.range b.header.period.toNat).findSome? b.header.slotFault).or
      ((List.range b.header.period.toNat).findSome? b.startFault) := by
  unfold validate
  simp only [badStart_eq_findSome?, badWalk_eq_findSome?, ← List.range_eq_range']
  rw [if_neg (by omega)]
  cases (List.range b.header.period.toNat).findSome? b.header.slotFault <;> rfl

theorem validate_of_slots {b : Bank} (low : 1 ≤ b.header.period.toNat) (high : b.header.period.toNat ≤ 4)
    (slots : ∀ k < b.header.period.toNat, (b.header.slot k).toNat < 32) :
    validate b = (List.range b.header.period.toNat).findSome? b.startFault := by
  have sound : (List.range b.header.period.toNat).findSome? b.header.slotFault = none :=
    List.findSome?_eq_none_iff.mpr fun k hk => (b.header.slotFault_eq_none_iff k).mpr (slots k (List.mem_range.mp hk))
  rw [validate_of_period low high, sound, Option.none_or]

theorem validate_badStart {b : Bank} {k : Nat} (low : 1 ≤ b.header.period.toNat) (high : b.header.period.toNat ≤ 4)
    (hk : k < b.header.period.toNat) (bad : 32 ≤ (b.header.slot k).toNat) (first : ∀ j < k, (b.header.slot j).toNat < 32) :
    validate b = some ⟨.badStart, k, (b.header.slot k).toNat⟩ := by
  have found := findSome?_range_of_first (g := b.header.slotFault) hk (if_pos bad)
    fun j hj => (b.header.slotFault_eq_none_iff j).mpr (first j hj)
  rw [validate_of_period low high, found, Option.some_or]

theorem validate_walkFault {b : Bank} {k : Nat} {f : ProgramFault} (low : 1 ≤ b.header.period.toNat)
    (high : b.header.period.toNat ≤ 4) (slots : ∀ k < b.header.period.toNat, (b.header.slot k).toNat < 32)
    (hk : k < b.header.period.toNat) (found : b.startFault k = some f) (first : ∀ j < k, b.startFault j = none) :
    validate b = some f := by
  rw [validate_of_slots low high slots, findSome?_range_of_first hk found first]

/-- A bank passes validation just when its period and its start slots in use are legal and no walk has a fault (R28). -/
theorem validate_eq_none_iff (b : Bank) : validate b = none ↔
    1 ≤ b.header.period.toNat ∧ b.header.period.toNat ≤ 4
      ∧ ∀ k < b.header.period.toNat, (b.header.slot k).toNat < 32 ∧ b.startFault k = none := by
  by_cases legal : 1 ≤ b.header.period.toNat ∧ b.header.period.toNat ≤ 4
  · obtain ⟨low, high⟩ := legal
    simp only [validate_of_period low high, Option.or_eq_none_iff, List.findSome?_eq_none_iff, List.mem_range,
      Header.slotFault_eq_none_iff, low, high, true_and]
    exact ⟨fun ⟨slots, walks⟩ k hk => ⟨slots k hk, walks k hk⟩, fun h => ⟨fun k hk => (h k hk).1, fun k hk => (h k hk).2⟩⟩
  · have bad : b.header.period.toNat < 1 ∨ 4 < b.header.period.toNat := by omega
    simp only [validate_badPeriod bad, reduceCtorEq, false_iff]
    exact fun ⟨low, high, _⟩ => legal ⟨low, high⟩

theorem Bank.wellFormed_iff_validate (b : Bank) : b.wellFormed = true ↔ validate b = none := by
  simp [Bank.wellFormed]

/-- From a start slot in use a well-formed bank's walk rises to a TAIL (R24). -/
theorem Bank.risesToTail_of_wellFormed {b : Bank} {k : Nat} (h : b.wellFormed = true) (hk : k < b.header.period.toNat) :
    (b.header.slot k).toNat < 32 ∧ b.risesToTail (b.header.start k) := by
  obtain ⟨-, -, starts⟩ := (validate_eq_none_iff b).mp (b.wellFormed_iff_validate.mp h)
  obtain ⟨slot, sound⟩ := starts k hk
  exact ⟨slot, (walkFault_eq_none_iff b k _).mp sound⟩

/-- Settles O32: validation takes the first fault by position, and the examination of a walk follows the walk to its end. -/
theorem validationOfBanks : Obligations.ValidationOfBanks := by
  refine ⟨fun b => ⟨validate_badPeriod, fun k low high hk => validate_badStart low high hk, fun low high slots => ⟨?_, ?_, ?_⟩,
    validate_eq_none_iff b⟩, fun b k h hk => ?_, Bank.walk_from⟩
  · exact fun k hk f => validate_walkFault low high slots hk
  · intro k hk earlier walk last next h hn
    have first : ∀ j < k, b.startFault j = none := fun j hj => (walkFault_eq_none_iff b j _).mpr (earlier j hj)
    exact ⟨fun passed => validate_walkFault low high slots hk (h.fault_of_passed hn passed k) first,
      fun new x y hx hy hyx => validate_walkFault low high slots hk (h.fault_of_falls hn new hx hy hyx k) first⟩
  · exact fun tails => (validate_eq_none_iff b).mpr
      ⟨low, high, fun k hk => ⟨slots k hk, (walkFault_eq_none_iff b k _).mpr (tails k hk)⟩⟩
  · obtain ⟨slot, walk, last, walks, tail⟩ := Bank.risesToTail_of_wellFormed h hk
    exact ⟨Nat.mod_eq_of_lt slot, walk, last, walks, tail, walks.length_le⟩

end Sys2Proof.Machine
end

section
/-! PROOF. Writes of records and the staged bank (R32 to R35): what a sequence of records reads to, the judgements of a write of entries in order
(R183), and the entries of the bank it leaves. -/

namespace Sys2Proof.Machine

/-! ### Sequences of records -/

/-- The record at a position of a sequence of records of one size. -/
def recordAt (size : Nat) (bytes : List Byte) (j : Nat) : List Byte := (bytes.drop (j * size)).take size

theorem recordAt_succ (size : Nat) (bytes : List Byte) (j : Nat) :
    recordAt size (bytes.drop size) j = recordAt size bytes (j + 1) := by
  unfold recordAt
  rw [List.drop_drop, show size + j * size = (j + 1) * size by ring]

theorem recordAt_zero (size : Nat) (bytes : List Byte) : recordAt size bytes 0 = bytes.take size := by
  simp [recordAt]

section
variable {α : Type} {read : List Byte → Except Nat α} {size : Nat}

/-- The first record that fails is the failure of the sequence, with its position. -/
theorem readRecords_error {field : Nat} (n : Nat) : ∀ (k position : Nat) (bytes : List Byte), k < n →
    read (recordAt size bytes k) = .error field → (∀ j < k, ∃ e, read (recordAt size bytes j) = .ok e) →
    readRecords read size n position bytes = .error (position + k, field) := by
  induction n with
  | zero => exact fun k _ _ hk => absurd hk (Nat.not_lt_zero k)
  | succ n ih =>
    intro k position bytes hk bad before
    unfold readRecords
    cases k with
    | zero => simp only [← recordAt_zero, bad, Nat.add_zero]
    | succ k =>
      obtain ⟨e, he⟩ := before 0 k.succ_pos
      have later := ih k (position + 1) (bytes.drop size) (Nat.lt_of_succ_lt_succ hk) (by rw [recordAt_succ, bad])
        fun j hj => by
          rw [recordAt_succ]
          exact before (j + 1) (Nat.succ_lt_succ hj)
      rw [← recordAt_zero, he]
      simp only [later, Nat.add_assoc, Nat.add_comm 1 k]

/-- A sequence without a failing record is read record by record. -/
theorem readRecords_ok (n : Nat) : ∀ (position : Nat) (bytes : List Byte),
    (∀ j < n, ∃ e, read (recordAt size bytes j) = .ok e) →
    ∃ es, readRecords read size n position bytes = .ok es ∧ es.length = n
      ∧ ∀ j (hj : j < es.length), read (recordAt size bytes j) = .ok es[j] := by
  induction n with
  | zero => exact fun _ _ _ => ⟨[], rfl, rfl, fun j hj => absurd hj (Nat.not_lt_zero j)⟩
  | succ n ih =>
    intro position bytes sound
    obtain ⟨e, he⟩ := sound 0 n.succ_pos
    obtain ⟨es, hes, length, records⟩ := ih (position + 1) (bytes.drop size) fun j hj => by
      rw [recordAt_succ]
      exact sound (j + 1) (Nat.succ_lt_succ hj)
    refine ⟨e :: es, ?_, by rw [List.length_cons, length], fun j hj => ?_⟩
    · unfold readRecords
      rw [← recordAt_zero, he]
      simp only [hes]
    · cases j with
      | zero => exact he
      | succ j =>
        rw [← recordAt_succ]
        exact records j (Nat.lt_of_succ_lt_succ hj)

/-! ### The judgements of a write of entries (R183) -/

theorem rangeLegal_iff (first count size : Nat) :
    rangeLegal first count size = true ↔ 1 ≤ count ∧ count ≤ 8 ∧ first < size ∧ first + count ≤ size := by
  simp [rangeLegal, and_assoc]

theorem fieldAt_first (b : Byte) (l : List Byte) : fieldAt (b :: l) 0 1 = b.toNat := by
  simp [fieldAt, numberOf]

theorem fieldAt_second (a b : Byte) (l : List Byte) : fieldAt (a :: b :: l) 1 1 = b.toNat := by
  simp [fieldAt, numberOf]

variable {entries : Nat} {write : List α → Nat → State → State} {r : Request} {first count : Byte} {body : List Byte}

theorem writeEntries_short (s : State) (h : r.args.length < 2) :
    writeEntries entries size read write r s = .answer s (Answer.badArgument .badLength) := by
  unfold writeEntries
  exact if_pos h

theorem writeEntries_badRange (s : State) (h : r.args = first :: count :: body)
    (range : rangeLegal first.toNat count.toNat entries ≠ true) :
    writeEntries entries size read write r s = .answer s (Answer.badArgument .badRange) := by
  simp [writeEntries, h, fieldAt_first, fieldAt_second, range, badRange]

theorem writeEntries_badLength (s : State) (h : r.args = first :: count :: body)
    (range : rangeLegal first.toNat count.toNat entries = true) (length : body.length ≠ count.toNat * size) :
    writeEntries entries size read write r s = .answer s (Answer.badArgument .badLength) := by
  have wrong : body.length + 1 + 1 ≠ 2 + count.toNat * size := by omega
  simp [writeEntries, h, fieldAt_first, fieldAt_second, range, wrong]

/-- With the range and the length legal, the records are read (R183). -/
theorem writeEntries_failed {k field : Nat} (s : State) (h : r.args = first :: count :: body)
    (range : rangeLegal first.toNat count.toNat entries = true) (length : body.length = count.toNat * size)
    (failed : readRecords read size count.toNat 0 body = .error (k, field)) :
    writeEntries entries size read write r s = .answer s (Answer.badArgument (.badField (first.toNat + k) field)) := by
  have two : ¬ body.length + 1 + 1 < 2 := by omega
  have right : body.length + 1 + 1 = 2 + count.toNat * size := by omega
  simp only [writeEntries, h, List.length_cons, if_neg two, fieldAt_first, fieldAt_second, range, if_pos right, if_true,
    List.drop_succ_cons, List.drop_zero, failed]

theorem writeEntries_done {es : List α} (s : State) (h : r.args = first :: count :: body)
    (range : rangeLegal first.toNat count.toNat entries = true) (length : body.length = count.toNat * size)
    (done : readRecords read size count.toNat 0 body = .ok es) :
    writeEntries entries size read write r s = .answer (write es first.toNat s) (Answer.okay [first, count]) := by
  have two : ¬ body.length + 1 + 1 < 2 := by omega
  have right : body.length + 1 + 1 = 2 + count.toNat * size := by omega
  simp only [writeEntries, h, List.length_cons, if_neg two, fieldAt_first, fieldAt_second, range, if_pos right, if_true,
    List.drop_succ_cons, List.drop_zero, done, writeResult, BitVec.ofNat_toNat, BitVec.setWidth_eq]

/-- The first failing record is refused, by the index of its entry and its field (R32, R110). -/
theorem writeEntries_badField {k field : Nat} (s : State) (h : r.args = first :: count :: body)
    (range : rangeLegal first.toNat count.toNat entries = true) (length : body.length = count.toNat * size)
    (hk : k < count.toNat) (bad : read (recordAt size body k) = .error field)
    (before : ∀ j < k, ∃ e, read (recordAt size body j) = .ok e) :
    writeEntries entries size read write r s = .answer s (Answer.badArgument (.badField (first.toNat + k) field)) :=
  writeEntries_failed s h range length (by rw [readRecords_error _ k 0 body hk bad before, Nat.zero_add])

/-- Records without a failing one are written from the first index on. -/
theorem writeEntries_written (s : State) (h : r.args = first :: count :: body)
    (range : rangeLegal first.toNat count.toNat entries = true) (length : body.length = count.toNat * size)
    (sound : ∀ j < count.toNat, ∃ e, read (recordAt size body j) = .ok e) :
    ∃ es, writeEntries entries size read write r s = .answer (write es first.toNat s) (Answer.okay [first, count])
      ∧ es.length = count.toNat ∧ ∀ j (hj : j < es.length), read (recordAt size body j) = .ok es[j] := by
  obtain ⟨es, done, records⟩ := readRecords_ok count.toNat 0 body sound
  exact ⟨es, writeEntries_done s h range length done, records⟩

end

/-! ### The staged bank -/

/-- The staged bank is judged locked before anything else, and otherwise the request runs (R35). -/
theorem unlessLocked_locked {s : State} (run : Request → State → Verdict) (r : Request)
    (h : s.programs.commitPending = true) : unlessLocked run r s = .answer s (Answer.refuse .stagedLocked) :=
  if_pos h

theorem unlessLocked_free {s : State} (run : Request → State → Verdict) (r : Request)
    (h : s.programs.commitPending = false) : unlessLocked run r s = run r s := by
  simp [unlessLocked, h]

theorem writeBankEntries_header (es : List Entry) : ∀ (index : Nat) (b : Bank),
    (writeBankEntries es index b).header = b.header := by
  induction es with
  | nil => exact fun _ _ => rfl
  | cons e es ih => exact fun index b => ih (index + 1) _

theorem Bank.entry_set (b : Bank) (e : Entry) (i : EntryIndex) {index : Nat} (h : index < 32) :
    ({ b with entries := b.entries.set (Fin.ofNat 32 index) e } : Bank).entry i
      = if index = i.val then e else b.entry i := by
  simp [Bank.entry, Vector.getElem_set, Nat.mod_eq_of_lt h]

/-- An entry outside the range written stands (R33). -/
theorem writeBankEntries_entry_outside (es : List Entry) (i : EntryIndex) : ∀ (index : Nat) (b : Bank),
    index + es.length ≤ 32 → ¬(index ≤ i.val ∧ i.val < index + es.length) →
    (writeBankEntries es index b).entry i = b.entry i := by
  induction es with
  | nil => exact fun _ _ _ _ => rfl
  | cons e es ih =>
    intro index b fits outside
    rw [List.length_cons] at fits outside
    unfold writeBankEntries
    rw [ih (index + 1) _ (by omega) (by omega), b.entry_set e i (by omega), if_neg (by omega)]

/-- An entry in the range written holds its record, and nothing of what it held (R33). -/
theorem writeBankEntries_entry_written (es : List Entry) (i : EntryIndex) : ∀ (index : Nat) (b : Bank),
    index + es.length ≤ 32 → index ≤ i.val → ∀ h : i.val - index < es.length,
    (writeBankEntries es index b).entry i = es[i.val - index] := by
  induction es with
  | nil => exact fun index _ _ _ h => absurd h (Nat.not_lt_zero _)
  | cons e es ih =>
    intro index b fits low h
    rw [List.length_cons] at fits h
    unfold writeBankEntries
    by_cases here : index = i.val
    · rw [writeBankEntries_entry_outside es i (index + 1) _ (by omega) (by omega), b.entry_set e i (by omega), if_pos here]
      simp [here]
    · have later : i.val - index = i.val - (index + 1) + 1 := by omega
      rw [ih (index + 1) _ (by omega) (by omega) (by omega)]
      simp [later]

/-! ### The two rows -/

theorem exec_writeProgram (s : State) :
    exec .writeProgram s = takeOwned .writeProgram (unlessLocked runWriteProgram) s := rfl

theorem exec_writeProgramHeader (s : State) :
    exec .writeProgramHeader s = takeOwned .writeProgramHeader (unlessLocked (withArguments 5 runWriteProgramHeader)) s := rfl

section
variable {row : Instr} {run : Request → State → Verdict} {s : State} {slot : Slot} {rest : List Slot}

/-- A row that writes the staged bank is refused while a commit is pending, whatever its arguments (R35). -/
theorem executes_locked (means : exec row s = takeOwned row (unlessLocked run) s) (h : s.serves row slot rest)
    (owner : s.ownersNext (requestOf slot)) (locked : s.programs.commitPending = true) :
    executes row s (requestOf slot) (Answer.refuse .stagedLocked) (s.owned rest) :=
  means.trans (takeOwned_answer h owner (unlessLocked_locked run (requestOf slot) (s := s.owned rest) locked))

/-- With no commit pending a row that writes the staged bank runs. -/
theorem executes_free {u : State} {a : Answer} (means : exec row s = takeOwned row (unlessLocked run) s)
    (h : s.serves row slot rest) (owner : s.ownersNext (requestOf slot)) (free : s.programs.commitPending = false)
    (answer : run (requestOf slot) (s.owned rest) = .answer u a) : executes row s (requestOf slot) a u :=
  means.trans (takeOwned_answer h owner
    ((unlessLocked_free run (requestOf slot) (s := s.owned rest) free).trans answer))

end

/-- What WRITE_PROGRAM leaves of the Program Store when it is accepted (R33). -/
theorem setStaged_writeBankEntries_entry (ps : ProgramStore) (es : List Entry) {first : Nat} (fits : first + es.length ≤ 32)
    {record : Nat → List Byte} (records : ∀ j (hj : j < es.length), readEntryRecord (record j) = .ok es[j]) :
    let written := ps.setStaged (writeBankEntries es first ps.stagedBank)
    (∀ i : EntryIndex, first ≤ i.val → i.val < first + es.length →
        readEntryRecord (record (i.val - first)) = .ok (written.stagedBank.entry i))
      ∧ ∀ i : EntryIndex, ¬(first ≤ i.val ∧ i.val < first + es.length) →
        written.stagedBank.entry i = ps.stagedBank.entry i := by
  simp only [ProgramStore.stagedBank_setStaged]
  constructor
  · intro i low high
    have inside : i.val - first < es.length := by omega
    rw [writeBankEntries_entry_written es i first _ fits low inside]
    exact records _ inside
  · exact fun i outside => writeBankEntries_entry_outside es i first _ fits outside

/-- The five values of a header, as given (R34). -/
theorem runWriteProgramHeader_answer {r : Request} {p a b c d : Byte} (s : State) (args : r.args = [p, a, b, c, d]) :
    withArguments 5 runWriteProgramHeader r s = .answer
      { s with programs := s.programs.setStaged { s.programs.stagedBank with header := ⟨p, #v[a, b, c, d]⟩ } }
      (Answer.okay []) := by
  simp [withArguments, runWriteProgramHeader, args, readHeader]

/-- Settles O43: each row is locked while a commit is pending, and what it writes is in the staged bank alone. -/
theorem stagedBankWritten : Obligations.StagedBankWritten := by
  constructor
  · rintro s slot rest r h rfl owner
    have done {u : State} {a : Answer} := executes_free (u := u) (a := a) (exec_writeProgram s) h owner
    refine ⟨executes_locked (exec_writeProgram s) h owner, fun free short => done free (writeEntries_short _ short),
      fun first count body free args => ⟨fun outside => ?_, fun inside => ?_⟩⟩
    · exact done free (writeEntries_badRange _ args
        fun range => outside (by have := (rangeLegal_iff _ _ _).mp range; omega))
    have range : rangeLegal first.toNat count.toNat 32 = true := (rangeLegal_iff _ _ _).mpr (by omega)
    refine ⟨fun wrong => done free (writeEntries_badLength _ args range wrong),
      fun k field length hk bad before => done free (writeEntries_badField _ args range length hk bad before),
      fun length sound => ?_⟩
    obtain ⟨es, answer, size, records⟩ := writeEntries_written (s.owned rest) args range length sound
    obtain ⟨inside, outside⟩ := setStaged_writeBankEntries_entry s.programs es (first := first.toNat) (by omega) records
    rw [size] at inside outside
    exact ⟨_, done free answer, by simp, by simp [free], by simp, by simp [writeBankEntries_header], inside, outside⟩
  · rintro s slot rest r h rfl owner
    have done {u : State} {a : Answer} := executes_free (u := u) (a := a) (exec_writeProgramHeader s) h owner
    refine ⟨executes_locked (exec_writeProgramHeader s) h owner, fun free wrong => done free (if_neg wrong),
      fun p a b c d free args => ?_⟩
    exact ⟨_, done free (runWriteProgramHeader_answer _ args), by simp, by simp [free], by simp, by simp⟩

end Sys2Proof.Machine
end

section
/-! PROOF. Step marks and boundaries (R44 to R48, R51, R53): what a move of the walk leaves alone, what ends before a boundary starts a
cycle, and the whole sequencer after a cycle start. -/

namespace Sys2Proof.Machine

/-! ### Moves of the walk -/

/-- A move of the walk raises no notice (R47). -/
theorem moveTo_notices (i : EntryIndex) (m : Time) (s : State) : (moveTo i m s).notices = s.notices := by
  simp [moveTo, presentRunning, enterEntry_fields]

/-- A move of the walk counts the entries that it skips, and nothing else of the two groups (R47). -/
theorem moveTo_groups (i : EntryIndex) (m : Time) (s : State) :
    (moveTo i m s).counters.tracker = s.counters.tracker
      ∧ (moveTo i m s).counters.sequencer = { s.counters.sequencer with
          skippedEntries := Count.upBy
            (examine s.programs.activeBank s.sequencer.origin s.sequencer.span m 32 i 0).2
            s.counters.sequencer.skippedEntries } := by
  simp [moveTo, presentRunning, enterEntry]

/-! ### Step marks -/

/-- In a STEP entry without a pending transition a step mark is one of the entry (R51). -/
theorem takeStepMark_step {s : State} {off : Nat} {settle : BitVec 8} {next : EntryIndex} (m : Time)
    (running : s.sequencer.state = .running) (step : s.currentEntry.ending = .step off settle next)
    (free : s.sequencer.pending = none) : takeStepMark m s = stepInEntry m settle next s := by
  simp [takeStepMark, running, step, free]

/-- Outside RUNNING, outside a STEP entry, or with a transition pending, a step mark is stray (R53). -/
theorem takeStepMark_stray {s : State} (m : Time)
    (h : s.sequencer.state ≠ .running ∨ (∀ off settle next, s.currentEntry.ending ≠ .step off settle next)
      ∨ s.sequencer.pending ≠ none) : takeStepMark m s = strayStep s := by
  unfold takeStepMark
  cases state : s.sequencer.state with
  | stopped | free | halted | rejoining => rfl
  | running =>
    cases ending : s.currentEntry.ending with
    | timed | tail => rfl
    | step off settle next =>
      have pending : s.sequencer.pending ≠ none :=
        (h.resolve_left (· state)).resolve_left (· off settle next ending)
      simp [Option.isSome_iff_ne_none.mpr pending]

/-- Settles O31: by whether the mark is one of the current entry, and then by its settle delay. -/
theorem stepMarkTaken : Obligations.StepMarkTaken := by
  refine ⟨fun m s off settle next d running step free delay => ?_, fun m s h => takeStepMark_stray m h⟩
  rw [takeStepMark_step m running step free, stepInEntry, spanFraction, ← delay]
  refine ⟨fun atOnce => ?_, fun delayed before => ?_, fun delayed late => ?_⟩
  · rw [if_pos atOnce]
    refine ⟨moveTo_walk next m s, rfl, moveTo_sequencer next m s, moveTo_programs next m s, moveTo_pins next m s,
      moveTo_notices next m s, (moveTo_keepsOutputs next m s).agree, ?_⟩
    rintro r rfl
    exact (moveTo_groups next m s).2
  · rw [if_neg delayed.ne', if_pos before]
  · rw [if_neg delayed.ne', if_neg (by simp [late])]

/-! ### The cycle that ends -/

/-- What a boundary leaves before it starts a cycle: from RUNNING the running cycle has ended (R45). -/
def State.cycleEnded (s : State) : State := if s.sequencer.state = .running then endCycle s else s

/-- A boundary that starts a cycle ends the running one first (R44, R45). -/
theorem takeBoundary_eq_startCycle (origin : Time) (ref : Nat) {s : State}
    (h : s.sequencer.state = .free ∨ s.sequencer.state = .running ∨ s.sequencer.state = .rejoining) :
    takeBoundary origin ref s = startCycle origin ref s.cycleEnded := by
  unfold takeBoundary State.cycleEnded
  obtain h | h | h := h <;> simp [h]

/-- What the end of the running cycle leaves of the fields that a cycle start reads. -/
@[simp] theorem State.cycleEnded_fields (s : State) :
    s.cycleEnded.time = s.time ∧ s.cycleEnded.config = s.config ∧ s.cycleEnded.pins = s.pins
      ∧ s.cycleEnded.programs = s.programs ∧ s.cycleEnded.sequencer.state = s.sequencer.state
      ∧ s.cycleEnded.sequencer.cycle = s.sequencer.cycle ∧ s.cycleEnded.sequencer.pulseEnd = s.sequencer.pulseEnd := by
  unfold State.cycleEnded
  split
  · simp [(endCycle_walk s).fields]
  · simp

/-- The end of a running cycle counts a truncation, unless in its TAIL, and a settle cancel when a transition was pending (R45, R52). -/
theorem State.cycleEnded_groups (s : State) :
    s.cycleEnded.counters.tracker = s.counters.tracker
      ∧ s.cycleEnded.counters.sequencer = { s.counters.sequencer with
          truncations := if s.sequencer.state = .running ∧ s.currentEntry.ending ≠ .tail then
            Count.up s.counters.sequencer.truncations else s.counters.sequencer.truncations
          settleCancels := if s.sequencer.state = .running ∧ s.sequencer.pending ≠ none then
            Count.up s.counters.sequencer.settleCancels else s.counters.sequencer.settleCancels } := by
  unfold State.cycleEnded
  by_cases running : s.sequencer.state = .running
  · rw [if_pos running, endCycle_eq]
    by_cases tail : s.currentEntry.ending = .tail <;> by_cases pending : s.sequencer.pending = none <;>
      simp [running, tail, pending]
  · simp [running]

/-- The number of the cycle that a boundary starts (R46, step 2). -/
theorem nextCycle_cycleEnded {s : State}
    (h : s.sequencer.state = .free ∨ s.sequencer.state = .running ∨ s.sequencer.state = .rejoining) :
    nextCycle s.cycleEnded.sequencer = if s.sequencer.state = .free then 0 else s.sequencer.cycle + 1 := by
  unfold nextCycle
  obtain h | h | h := h <;> simp [h]

/-! ### The cycle that starts -/

/-- The bank that is active once a pending commit is applied (R165). -/
theorem ProgramStore.applied_activeBank (ps : ProgramStore) :
    ps.applied.activeBank = if ps.commitPending then ps.stagedBank else ps.activeBank := by
  unfold ProgramStore.applied
  split
  · exact ps.activeBank_swap false
  · rfl

/-- What RUNNING presents is read from the programs, the current index and E alone (R39). -/
theorem runningPresentation_congr {s t : State} (programs : s.programs = t.programs)
    (current : s.sequencer.current = t.sequencer.current) (endTime : s.sequencer.endTime = t.sequencer.endTime) :
    runningPresentation s = runningPresentation t := by
  unfold runningPresentation State.currentEntry
  rw [programs, current, endTime]

/-- The entry of the start list for the new cycle is entered at the moment, in the bank that is active then (R46, steps 3 to 5). -/
theorem cycleEntered_eq (origin : Time) (ref : Nat) (s : State) :
    cycleEntered origin ref s
      = enterEntry (startEntry s.programs.applied.activeBank (nextCycle s.sequencer)) s.time
          (cycleBegun origin ref s) := by
  have time : (cycleBegun origin ref s).time = s.time := by simp [cycleBegun]
  unfold cycleEntered
  simp only [cycleBegun_programs, cycleBegun_sequencer, time]

/-- The whole sequencer after a cycle start (R46, R47). -/
theorem startCycle_sequencer_eq (origin : Time) (ref : Nat) (s : State) {b : Bank} {r : EntryIndex × Nat}
    (bank : b = s.programs.applied.activeBank)
    (found : r = examine b origin ref s.time 32 (startEntry b (nextCycle s.sequencer)) 0) :
    (startCycle origin ref s).sequencer = {
      state := .running, current := r.1, origin := origin, span := ref
      endTime := entryEndTime origin ref (b.entry r.1).ending
      stepSeen := false, pending := none, cycle := nextCycle s.sequencer
      deadline := entryDeadlineOf (b.entry r.1).ending (entryEndTime origin ref (b.entry r.1).ending)
      settle := none
      presentation := runningPresentation (startCycle origin ref s)
      pulseEnd := if s.config.syncOutEnable then some (Time.plus s.time 125) else s.sequencer.pulseEnd } := by
  have started := startCycle_sequencer origin ref s
  have presented : runningPresentation (cycleEntered origin ref s) = runningPresentation (startCycle origin ref s) := by
    refine runningPresentation_congr ?_ (by rw [started]) (by rw [started])
    simp only [startCycle_programs, cycleEntered_eq, enterEntry_fields, cycleBegun_programs]
  rw [started, presented, cycleEntered_eq]
  subst bank found
  simp [enterEntry, cycleBegun_sequencer, cycleBegun_programs]

/-- The pulse of a cycle start follows the delivery, by the enable and the time of the state the start began with (R46, steps 7 and 8). -/
theorem startCycle_pulse (origin : Time) (ref : Nat) (s : State) {x : State}
    (presented : x = presentRunning (cycleRunning origin ref s)) : startCycle origin ref s =
    if s.config.syncOutEnable then
      { x with
        pins := { x.pins with syncOut := true }
        sequencer := { x.sequencer with pulseEnd := some (Time.plus s.time 125) } }
    else x := by
  obtain ⟨time, _, _, _, _, _, _, _, _, config, _⟩ := (cycleRunning_walk origin ref s).fields
  rw [startCycle, ← presented, startPulse]
  simp [presented, presentRunning, time, config, Config.syncPulseTicks]

/-! ### Boundaries -/

/-- The notices of a boundary that starts a cycle carry the number of that cycle (R19, R46). -/
theorem State.boundaryCycle_starts {s : State}
    (h : s.sequencer.state = .free ∨ s.sequencer.state = .running ∨ s.sequencer.state = .rejoining) :
    s.boundaryCycle = if s.sequencer.state = .free then 0 else s.sequencer.cycle + 1 := by
  unfold State.boundaryCycle
  obtain h | h | h := h <;> simp [h, SequencerState.startsCycle]

section

variable {origin : Time} {ref : Nat} {s : State} {cycle : Count} {b : Bank} {r : EntryIndex × Nat}
  (starts : s.sequencer.state = .free ∨ s.sequencer.state = .running ∨ s.sequencer.state = .rejoining)
  (number : cycle = if s.sequencer.state = .free then 0 else s.sequencer.cycle + 1)
  (bank : b = if s.programs.commitPending then s.programs.stagedBank else s.programs.activeBank)
  (found : r = examine b origin ref s.time 32 (startEntry b cycle) 0)

include starts

/-- A boundary that starts a cycle applies a pending commit (R46, step 1). -/
theorem takeBoundary_programs : (takeBoundary origin ref s).programs = s.programs.applied := by
  simp [takeBoundary_eq_startCycle origin ref starts, startCycle_programs]

/-- A boundary that starts a cycle raises SYNC_OUT while its enable is on (R46, step 8). -/
theorem takeBoundary_pins :
    (takeBoundary origin ref s).pins = { s.pins with syncOut := s.config.syncOutEnable || s.pins.syncOut } := by
  simp [takeBoundary_eq_startCycle origin ref starts, startCycle_pins]

include number

/-- A boundary that starts a cycle raises its notices with the number of that cycle (R19, R46). -/
theorem takeBoundary_raises_cycle : s.raises cycle s.boundaryNotices (takeBoundary origin ref s) := by
  rw [number, ← State.boundaryCycle_starts starts]
  exact takeBoundary_raises origin ref s

/-- The number of the new cycle, as the start from the state in which the running cycle has ended reads it. -/
theorem cycleEnded_number : nextCycle s.cycleEnded.sequencer = cycle := (nextCycle_cycleEnded starts).trans number.symm

include bank

omit starts number in
/-- The bank that the cycle walks, as the start from the state in which the running cycle has ended reads it (R165). -/
theorem cycleEnded_bank : b = s.cycleEnded.programs.applied.activeBank := by
  simp [bank, ProgramStore.applied_activeBank]

/-- The stages of the cycle start at a boundary (R46): commit, entry, RUNNING, delivery, pulse. -/
theorem takeBoundary_stages : ∃ n v w x,
    n = applyPendingCommit .cycleStart cycle s.cycleEnded
      ∧ v = enterEntry (startEntry b cycle) s.time
          { n with sequencer := { n.sequencer with cycle := cycle, origin := origin, span := ref } }
      ∧ w = ({ v with sequencer := { v.sequencer with state := .running } }).countSequencer
          (fun c => { c with cycles := Count.up c.cycles })
      ∧ x = presentBoth (runningPresentation w) w
      ∧ takeBoundary origin ref s = if s.config.syncOutEnable then
          { x with
            pins := { x.pins with syncOut := true }
            sequencer := { x.sequencer with pulseEnd := some (Time.plus s.time 125) } }
        else x := by
  obtain ⟨time, config, -⟩ := s.cycleEnded_fields
  have entered := cycleEntered_eq origin ref s.cycleEnded
  rw [← cycleEnded_bank bank, cycleBegun, cycleEnded_number starts number, time] at entered
  have pulsed := startCycle_pulse origin ref s.cycleEnded rfl
  rw [← takeBoundary_eq_startCycle origin ref starts, config, time] at pulsed
  exact ⟨_, _, _, _, rfl, entered, rfl, rfl, pulsed⟩

include found

omit bank in
/-- What the examination of the start entry finds, as the start from the state in which the running cycle has ended makes it (R47). -/
theorem cycleEnded_found :
    r = examine b origin ref s.cycleEnded.time 32 (startEntry b (nextCycle s.cycleEnded.sequencer)) 0 := by
  simp [found, cycleEnded_number starts number]

/-- The whole sequencer after a boundary that starts a cycle (R46, R47). -/
theorem takeBoundary_sequencer_eq : (takeBoundary origin ref s).sequencer = {
    state := .running, current := r.1, origin := origin, span := ref
    endTime := entryEndTime origin ref (b.entry r.1).ending
    stepSeen := false, pending := none, cycle := cycle
    deadline := entryDeadlineOf (b.entry r.1).ending (entryEndTime origin ref (b.entry r.1).ending)
    settle := none
    presentation := runningPresentation (takeBoundary origin ref s)
    pulseEnd := if s.config.syncOutEnable then some (Time.plus s.time 125) else s.sequencer.pulseEnd } := by
  obtain ⟨time, config, -, -, -, -, pulse⟩ := s.cycleEnded_fields
  rw [takeBoundary_eq_startCycle origin ref starts,
    startCycle_sequencer_eq origin ref s.cycleEnded (cycleEnded_bank bank) (cycleEnded_found starts number found),
    cycleEnded_number starts number, time, config, pulse]

/-- A boundary that starts a cycle counts what ends the running one, the new cycle and the skipped entries (R45, R46, R47). -/
theorem takeBoundary_groups :
    (takeBoundary origin ref s).counters.tracker = s.counters.tracker
      ∧ (takeBoundary origin ref s).counters.sequencer = { s.counters.sequencer with
          cycles := Count.up s.counters.sequencer.cycles
          skippedEntries := Count.upBy r.2 s.counters.sequencer.skippedEntries
          truncations := if s.sequencer.state = .running ∧ s.currentEntry.ending ≠ .tail then
            Count.up s.counters.sequencer.truncations else s.counters.sequencer.truncations
          settleCancels := if s.sequencer.state = .running ∧ s.sequencer.pending ≠ none then
            Count.up s.counters.sequencer.settleCancels else s.counters.sequencer.settleCancels } := by
  obtain ⟨ended, endedSequencer⟩ := s.cycleEnded_groups
  obtain ⟨tracker, sequencer⟩ := startCycle_groups origin ref s.cycleEnded
  rw [← cycleEnded_bank bank, ← cycleEnded_found starts number found, endedSequencer] at sequencer
  rw [takeBoundary_eq_startCycle origin ref starts]
  exact ⟨tracker.trans ended, sequencer⟩

end

/-- Settles O30: a boundary that starts a cycle is the cycle start from the state in which the running cycle has ended. -/
theorem boundaryTaken : Obligations.BoundaryTaken := by
  intro origin ref s
  refine ⟨fun stopped => by simp [takeBoundary, stopped], fun halted => by simp [takeBoundary, halted], endCycle_eq s, ?_⟩
  rintro starts t cycle b r rfl number bank found
  obtain ⟨tracked, counted⟩ := takeBoundary_groups starts number bank found
  rw [takeBoundary_sequencer_eq starts number bank found, takeBoundary_pins starts]
  refine ⟨takeBoundary_stages starts number bank, takeBoundary_walk origin ref s, takeBoundary_programs starts,
    rfl, rfl, rfl, rfl, rfl, rfl, rfl, rfl, rfl, ?deadline, takeBoundary_raises_cycle starts number,
    rfl, (takeBoundary_keepsOutputs origin ref s).agree, rfl, rfl, tracked, counted⟩
  case deadline => cases (b.entry r.1).ending <;> rfl

end Sys2Proof.Machine
end

section
/-! PROOF. Link events (R88, R90): what an indication of UP comes to outside reset, and what a link up event leaves of the port and of
everything else. -/

namespace Sys2Proof.Machine

/-! ### Outside reset -/

theorem outsideReset_released {s : State} (h : s.inReset = false) (f : State → State) : outsideReset s f = f s :=
  if_neg (by simp [h])

/-- Outside reset an indication of UP is a link up event on a port that is DOWN, and no event on a port that is UP (R88). -/
theorem exec_linkUp_released {s : State} (h : s.inReset = false) (p : Port) :
    exec (.linkUp p) s
      = .next (if (s.port p).link = .up then s.setPhy p .up else linkUpEvent p (s.setPhy p .up)) :=
  congrArg Host.Outcome.next (outsideReset_released (s := s.setPhy p .up) h _)

/-! ### The link up event -/

theorem State.port_setLink (s : State) (p : Port) (l : Link) : (s.setLink p l).port p = { s.port p with link := l } :=
  (s.port_setPort p p _).trans (if_pos rfl)

/-- Notices and the frames that they send leave the ports alone. -/
theorem State.sameButNotices.port {s t : State} (h : s.sameButNotices t) (p : Port) : t.port p = s.port p := by
  obtain ⟨-, -, -, ports, -⟩ := h.fields
  rw [State.port, ports, State.port]

/-- The evaluation leaves the cycle number alone, so LINK_CHANGE carries the one the event began with (R90, R177). -/
theorem linkUpEvent_eq (p : Port) (s : State) :
    linkUpEvent p s = raiseNotice (.linkChange p .up) s.sequencer.cycle (evaluate p (s.setLink p .up)) := by
  simp [linkUpEvent]

/-- A link up event sets the link state; the evaluation and the notice reach no more than traffic and notices (R90). -/
theorem linkUpEvent_same (p : Port) (s : State) : (s.setLink p .up).sameButNotices (linkUpEvent p s) :=
  (evaluate_same p _).toNotices.trans (raiseNotice_same _ _ _)

/-- A link up event leaves the port UP with the receiver that it had (R90). -/
theorem linkUpEvent_port (p : Port) (s : State) : (linkUpEvent p s).port p = ⟨.up, (s.port p).receiver⟩ :=
  ((linkUpEvent_same p s).port p).trans (s.port_setLink p .up)

/-- Without a session a link up event raises nothing: it is the link state and the evaluation (R90, R178). -/
theorem linkUpEvent_closed (p : Port) (s : State) (h : s.agent.session.isOpen = false) :
    linkUpEvent p s = evaluate p (s.setLink p .up) :=
  raiseNotice_closed _ _ _ (by simpa using h)

/-- Settles O9: an indication of UP is a link up event exactly on a port that is DOWN. -/
theorem linkUpTaken : Obligations.LinkUpTaken := by
  intro p s released
  have means := exec_linkUp_released released p
  refine ⟨fun down => ?event, fun up => by rw [means, if_pos up]⟩
  case event =>
    refine ⟨linkUpEvent p (s.setPhy p .up), by simp [means, down], linkUpEvent_eq p _, linkUpEvent_same p _, ?idle,
      linkUpEvent_closed p (s.setPhy p .up)⟩
    case idle =>
      intro quiet
      obtain ⟨idle, -⟩ := quiet p down
      exact (linkUpEvent_port p _).trans (congrArg (LinePort.mk .up) idle)

end Sys2Proof.Machine
end

section
/-! PROOF. WRITE_MATCH (R110, R111): what a write of records leaves of the Match Table. -/

namespace Sys2Proof.Machine

/-! ### The Match Table written -/

/-- One record written: its entry holds it with hit count 0, and no other entry or hit count is reached (R111). -/
theorem Classifier.set_fields (c : Classifier) (e : MatchEntry) (i : MatchIndex) {index : Nat} (h : index < 64) :
    let written : Classifier := ⟨c.entries.set (Fin.ofNat 64 index) e, c.hits.set (Fin.ofNat 64 index) 0⟩
    written.entry i = (if index = i.val then e else c.entry i) ∧ written.hit i = if index = i.val then 0 else c.hit i := by
  simp [Classifier.entry, Classifier.hit, Vector.getElem_set, Nat.mod_eq_of_lt h]

/-- An entry outside the range written stands, with its hit count (R111). -/
theorem writeMatchEntries_outside (es : List MatchEntry) (i : MatchIndex) : ∀ (index : Nat) (c : Classifier),
    index + es.length ≤ 64 → ¬(index ≤ i.val ∧ i.val < index + es.length) →
    (writeMatchEntries es index c).entry i = c.entry i ∧ (writeMatchEntries es index c).hit i = c.hit i := by
  induction es with
  | nil => exact fun _ _ _ _ => ⟨rfl, rfl⟩
  | cons e es ih =>
    intro index c fits outside
    rw [List.length_cons] at fits outside
    obtain ⟨entry, hit⟩ := c.set_fields e i (index := index) (by omega)
    unfold writeMatchEntries
    obtain ⟨later, laterHit⟩ := ih (index + 1) _ (by omega) (by omega)
    rw [later, laterHit, entry, hit, if_neg (by omega), if_neg (by omega)]
    exact ⟨rfl, rfl⟩

/-- An entry in the range written holds its record, with hit count 0 (R111). -/
theorem writeMatchEntries_written (es : List MatchEntry) (i : MatchIndex) : ∀ (index : Nat) (c : Classifier),
    index + es.length ≤ 64 → index ≤ i.val → ∀ h : i.val - index < es.length,
    (writeMatchEntries es index c).entry i = es[i.val - index] ∧ (writeMatchEntries es index c).hit i = 0 := by
  induction es with
  | nil => exact fun index _ _ _ h => absurd h (Nat.not_lt_zero _)
  | cons e es ih =>
    intro index c fits low h
    rw [List.length_cons] at fits h
    unfold writeMatchEntries
    by_cases here : index = i.val
    · obtain ⟨entry, hit⟩ := c.set_fields e i (index := index) (by omega)
      obtain ⟨later, laterHit⟩ := writeMatchEntries_outside es i (index + 1) _ (by omega) (by omega)
      rw [later, laterHit, entry, hit, if_pos here, if_pos here]
      simp [here]
    · have later : i.val - index = i.val - (index + 1) + 1 := by omega
      simpa [later] using ih (index + 1) _ (by omega) (by omega) (by omega)

/-- Settles O42: the judgements of a write of entries, and the Match Table that an accepted one leaves. -/
theorem matchEntriesWritten : Obligations.MatchEntriesWritten := by
  rintro s slot rest r first count body h rfl owner
  have done {u : State} {a : Answer} (answer : runWriteMatch (requestOf slot) (s.owned rest) = .answer u a) :
      executes .writeMatch s (requestOf slot) a u := takeOwned_answer h owner answer
  refine ⟨fun short => done (writeEntries_short _ short), fun args => ⟨fun outside => ?_, fun inside => ?_⟩⟩
  · exact done (writeEntries_badRange _ args
      fun range => outside (by have := (rangeLegal_iff _ _ _).mp range; omega))
  have range : rangeLegal first.toNat count.toNat 64 = true := (rangeLegal_iff _ _ _).mpr (by omega)
  refine ⟨fun wrong => done (writeEntries_badLength _ args range wrong),
    fun k field length hk bad before => done (writeEntries_badField _ args range length hk bad before),
    fun length sound => ?_⟩
  obtain ⟨es, answer, size, records⟩ := writeEntries_written (s.owned rest) args range length sound
  refine ⟨writeMatchEntries es first.toNat s.classifier, done answer, fun i low high => ?_, fun i outside => ?_⟩
  · have within : i.val - first.toNat < es.length := by omega
    obtain ⟨entry, hit⟩ := writeMatchEntries_written es i first.toNat s.classifier (by omega) low within
    exact ⟨(records _ within).trans (congrArg Except.ok entry.symm), hit⟩
  · exact writeMatchEntries_outside es i first.toNat s.classifier (by omega) (by omega)

end Sys2Proof.Machine
end

section
/-! PROOF. The fields of a frame (R83), the conditions of a match (R102) and the governing entry (R103). -/

namespace Sys2Proof.Machine

/-! ### Fields of a frame -/

/-- A field of n bytes stands whole in a word of 8 n bits (R182). -/
theorem toNat_ofNat_fieldAt {w n : Nat} (h : 256 ^ n = 2 ^ w) (bytes : List Byte) (off : Nat) :
    (BitVec.ofNat w (fieldAt bytes off n)).toNat = fieldAt bytes off n := by
  rw [BitVec.toNat_ofNat, ← h, Nat.mod_eq_of_lt (fieldAt_lt bytes off n)]

/-- The addresses stand at the front of every frame, tagged or not (R83). -/
theorem frameFields_addresses (bytes : List Byte) :
    (frameFields bytes).destination.toNat = fieldAt bytes 0 6 ∧ (frameFields bytes).source.toNat = fieldAt bytes 6 6 := by
  unfold frameFields
  split <;> exact ⟨toNat_ofNat_fieldAt (by decide) bytes 0, toNat_ofNat_fieldAt (by decide) bytes 6⟩

/-- In a tagged frame the type stands after the tag, and the payload after the type (R83). -/
theorem frameFields_tagged {bytes : List Byte} (h : fieldAt bytes 12 2 = 0x8100) :
    ∃ priority vlan, (frameFields bytes).tag = some (priority, vlan)
      ∧ priority.val = fieldAt bytes 14 2 / 2 ^ 13 ∧ vlan.toNat = fieldAt bytes 14 2 % 2 ^ 12
      ∧ (frameFields bytes).etherType.toNat = fieldAt bytes 16 2 ∧ (frameFields bytes).payloadAt = 18 := by
  have three : fieldAt bytes 14 2 / 2 ^ 13 < 8 := by
    have := fieldAt_lt bytes 14 2
    omega
  unfold frameFields
  rw [if_pos h]
  exact ⟨_, _, rfl, Nat.mod_eq_of_lt three, BitVec.toNat_ofNat _ _, toNat_ofNat_fieldAt (by decide) bytes 16, rfl⟩

/-- In an untagged frame the type stands after the addresses (R83). -/
theorem frameFields_untagged {bytes : List Byte} (h : fieldAt bytes 12 2 ≠ 0x8100) :
    (frameFields bytes).tag = none ∧ (frameFields bytes).etherType.toNat = fieldAt bytes 12 2
      ∧ (frameFields bytes).payloadAt = 14 := by
  unfold frameFields
  rw [if_neg h]
  exact ⟨rfl, toNat_ofNat_fieldAt (by decide) bytes 12, rfl⟩

/-! ### The conditions of a match -/

theorem Ingress.admits_iff (i : Ingress) (p : Port) :
    i.admits p = true ↔ i = .either ∨ (i = .portA ∧ p = .a) ∨ (i = .portB ∧ p = .b) := by
  cases i <;> cases p <;> simp [Ingress.admits]

/-- A masked comparison holds when the two words agree in every bit of the mask (R102). -/
theorem masked_eq_zero_iff {w : Nat} (x y mask : BitVec w) :
    (x ^^^ y) &&& mask = 0 ↔ ∀ i < w, mask.getLsbD i = true → x.getLsbD i = y.getLsbD i := by
  constructor
  · intro agree i _ masked
    have bit := congrArg (BitVec.getLsbD · i) agree
    simpa [masked] using bit
  · intro agree
    refine BitVec.eq_of_getLsbD_eq fun i hi => ?_
    cases masked : mask.getLsbD i with
    | false => simp [masked]
    | true => simp [masked, agree i hi masked]

theorem typeMatches_iff (etherType : Option Word16) (f : FrameFields) :
    typeMatches etherType f = true ↔ etherType = none ∨ etherType = some f.etherType := by
  cases etherType <;> simp [typeMatches]

theorem vlanMatches_iff (vlan : Option (BitVec 12)) (f : FrameFields) :
    vlanMatches vlan f = true ↔ vlan = none ∨ ∃ t, f.tag = some t ∧ vlan = some t.2 := by
  unfold vlanMatches
  cases vlan with
  | none => simp
  | some v => cases tag : f.tag <;> simp

/-- The priority set is asked for the tag priority, or for "untagged" (R102). -/
theorem getLsbD_priorityBit (s : PrioritySet) (f : FrameFields) :
    s.getLsbD (priorityBit f) = true ↔
      match f.tag with
      | some t => s.getLsbD t.1.val = true
      | none => s.getLsbD 8 = true := by
  unfold priorityBit
  cases f.tag <;> rfl

/-- The conditions of a match, each by itself (R102). -/
theorem MatchEntry.matches_iff (e : MatchEntry) (p : Port) (f : FrameFields) :
    e.matches p f = true ↔
      e.valid = true ∧ e.ingress.admits p = true ∧ (f.destination ^^^ e.value) &&& e.mask = 0
        ∧ typeMatches e.etherType f = true ∧ e.priorities.getLsbD (priorityBit f) = true
        ∧ vlanMatches e.vlan f = true := by
  simp only [MatchEntry.matches, Bool.and_eq_true, beq_iff_eq, and_assoc]

/-! ### The governing entry -/

/-- The first entry matched in index order governs (R103). -/
theorem governing_eq_some_iff (c : Classifier) (p : Port) (f : FrameFields) (i : MatchIndex) :
    governing c p f = some i ↔
      (c.entry i).matches p f = true ∧ ∀ j : MatchIndex, j < i → (c.entry j).matches p f = false := by
  simpa [governing, List.finRange] using
    List.find?_ofFn_eq_some_of_injective (p := fun i => (c.entry i).matches p f) (i := i) Function.injective_id

/-- With no entry matched none governs (R103). -/
theorem governing_eq_none_iff (c : Classifier) (p : Port) (f : FrameFields) :
    governing c p f = none ↔ ∀ i, (c.entry i).matches p f = false := by
  simp [governing]

/-- Settles O14: the fields of a frame by whether it is tagged, the governing entry as the first index found, and a match condition by
condition. -/
theorem matchAndGoverningEntry : Obligations.MatchAndGoverningEntry := by
  refine ⟨fun bytes field spelled => ?fields, fun c p f => ⟨governing_eq_some_iff c p f, governing_eq_none_iff c p f⟩,
    fun e p f => ?conditions⟩
  case fields =>
    obtain rfl : field = fieldAt bytes := funext fun off => funext (spelled off)
    obtain ⟨destination, source⟩ := frameFields_addresses bytes
    exact ⟨destination, source, frameFields_tagged, frameFields_untagged⟩
  case conditions =>
    exact (e.matches_iff p f).trans (and_congr .rfl (and_congr (e.ingress.admits_iff p)
      (and_congr (masked_eq_zero_iff _ _ _) (and_congr (typeMatches_iff _ f)
        (and_congr (getLsbD_priorityBit _ f) (vlanMatches_iff _ f))))))

end Sys2Proof.Machine
end

section
/-! PROOF. The reads (R36, R112, R137, R141, R144, R145, R174): the identifiers and the values of the config items (R140), what a read of a bank
returns, and what each read answers. -/

namespace Sys2Proof.Machine

/-! ### Config items -/

/-- The identifiers of the quotas of both ports (R140). -/
theorem configIdOf_quota (q : QueueName) :
    configIdOf (0x40 + q.val) = some (.quota .a q) ∧ configIdOf (0x50 + q.val) = some (.quota .b q) := by
  fin_cases q <;> exact ⟨rfl, rfl⟩

/-- The identifiers listed are those that name an item (R140). -/
theorem configIdOf_eq_none_iff (n : Nat) : configIdOf n = none ↔ n ∉ configIdentifiers := by
  by_cases high : 0x60 < n
  · have unknown : configIdOf n = none := by
      unfold configIdOf
      repeat rw [if_neg (by omega)]
    have unlisted : ∀ m ∈ configIdentifiers, m ≤ 0x60 := by decide
    exact iff_of_true unknown fun listed => absurd (unlisted n listed) (by omega)
  · exact (by decide : ∀ m < 0x61, configIdOf m = none ↔ m ∉ configIdentifiers) n (by omega)

theorem bigEndian_one (v : Nat) : bigEndian 1 v = [BitVec.ofNat 8 v] := by simp [bigEndian]

/-- A value has the size that its item asks for (section 12.4). -/
theorem configValue_length (c : ConfigItems) (item : ConfigId) : (configValue c item).length = item.size := by
  cases item <;> simp [configValue, ConfigId.size]

theorem configItemBytes_of_id {n : Nat} {item : ConfigId} (c : ConfigItems) (h : configIdOf n = some item) :
    configItemBytes c n = BitVec.ofNat 8 n :: configValue c item := by
  unfold configItemBytes
  rw [h]

/-! ### Banks -/

/-- A header's bytes are its period and its slots by position (R25, section 12.3). -/
theorem headerBytes_eq (h : Header) : headerBytes h = h.period :: (List.range 4).map h.slot := by
  refine congrArg (h.period :: ·) (List.ext_getElem (by simp) fun i hi _ => ?_)
  simp only [Vector.length_toList] at hi
  simp [Header.slot, hi]

/-- What READ_PROGRAM returns, with the header by its slots (R36, section 12.4). -/
theorem programResult_eq (role : Nat) (id : BankId) (b : Bank) (pending : Bool) (first count : Nat) :
    programResult role id b pending first count
      = [BitVec.ofNat 8 role, bankByte id, if pending then 1 else 0, b.header.period]
        ++ (List.range 4).map b.header.slot ++ [BitVec.ofNat 8 first, BitVec.ofNat 8 count]
        ++ (List.range count).flatMap (fun k => entryRecordBytes (b.entry (Fin.ofNat 32 (first + k)))) := by
  simp [programResult, headerBytes_eq, flagByte]

/-! ### Answers of requests that are not owner-only -/

section
variable {row : Instr} {run : Request → State → Verdict} {s u : State} {slot : Slot} {rest : List Slot} {a : Answer} {n : Nat}

/-- A request with the arguments it should have is answered as it runs on the state in which its slot has left the FIFO (R132, R137). -/
theorem answers_open (means : exec row s = takeOpen row (withArguments n run) s) (h : s.serves row slot rest)
    (length : (requestOf slot).args.length = n) (answer : run (requestOf slot) (takeSlot rest s) = .answer u a) :
    answers row s (requestOf slot) a u :=
  means.trans (takeOpen_answer h ((if_pos length).trans answer))

/-- A request with arguments of another length is refused with BAD_LENGTH (R183). -/
theorem answers_badLength (means : exec row s = takeOpen row (withArguments n run) s) (h : s.serves row slot rest)
    (wrong : (requestOf slot).args.length ≠ n) :
    answers row s (requestOf slot) (Answer.badArgument .badLength) (takeSlot rest s) :=
  means.trans (takeOpen_answer h (if_neg wrong))

end

/-- No arguments are arguments of length 0 (R183). -/
theorem withoutArguments_eq (run : Request → State → Verdict) : withoutArguments run = withArguments 0 run := by
  funext r s
  cases h : r.args <;> simp [withoutArguments, withArguments, h]

theorem exec_identify (s : State) : exec .identify s = takeOpen .identify (withArguments 0 runIdentify) s :=
  congrArg (takeOpen .identify · s) (withoutArguments_eq runIdentify)

theorem exec_readStatus (s : State) : exec .readStatus s = takeOpen .readStatus (withArguments 0 runReadStatus) s :=
  congrArg (takeOpen .readStatus · s) (withoutArguments_eq runReadStatus)

/-- Each request that is not owner-only is judged first for the length of its arguments (R183). -/
theorem exec_openArguments (s : State) : ∀ x ∈ openArguments, ∃ run, exec x.1 s = takeOpen x.1 (withArguments x.2 run) s := by
  simp only [openArguments, List.forall_mem_cons, List.not_mem_nil, false_imp_iff, implies_true, and_true]
  exact ⟨⟨_, exec_identify s⟩, ⟨_, exec_readStatus s⟩, ⟨runReadConfig, rfl⟩, ⟨runReadMatch, rfl⟩, ⟨runReadProgram, rfl⟩,
    ⟨runReadCounters, rfl⟩, ⟨runOpenSession, rfl⟩⟩

/-! ### The reads with their arguments -/

theorem fieldAt_third (a b c : Byte) (l : List Byte) : fieldAt (a :: b :: c :: l) 2 1 = c.toNat := by
  simp [fieldAt, numberOf]

/-- A range of entries by the last index of the table (R32, R110, R112). -/
theorem rangeLegal_iff_last (first count last : Nat) :
    rangeLegal first count (last + 1) = true ↔ 1 ≤ count ∧ count ≤ 8 ∧ first ≤ last ∧ first + count ≤ last + 1 := by
  rw [rangeLegal_iff, Nat.lt_succ_iff]

section
variable {r : Request} {id first count role selector : Byte} (s : State)

theorem runReadConfig_item {item : ConfigId} (args : r.args = [id]) (known : configIdOf id.toNat = some item) :
    runReadConfig r s = .answer s (Answer.okay (id :: configValue s.config item)) := by
  have all : configIdOf 0xFF = none := by decide
  have single : id.toNat ≠ 0xFF := fun h => by simp [h, all] at known
  simp [runReadConfig, args, fieldAt_first, single, known, configItemBytes_of_id]

theorem runReadConfig_all (args : r.args = [0xFF]) :
    runReadConfig r s = .answer s (Answer.okay (configIdentifiers.flatMap (configItemBytes s.config))) := by
  simp [runReadConfig, args, fieldAt_first]

theorem runReadConfig_unknown (args : r.args = [id]) (unknown : configIdOf id.toNat = none) (single : id ≠ 0xFF) :
    runReadConfig r s = .answer s (Answer.badArgument .badValue) := by
  have other : id.toNat ≠ 0xFF := fun all => single (BitVec.eq_of_toNat_eq all)
  simp [runReadConfig, args, fieldAt_first, other, unknown]

theorem runReadMatch_eq (args : r.args = [first, count]) :
    runReadMatch r s =
      if rangeLegal first.toNat count.toNat 64 then
        .answer s (Answer.okay ((List.range count.toNat).flatMap
          (fun k => matchEntryResult s.classifier (Fin.ofNat 64 (first.toNat + k)))))
      else .answer s (Answer.badArgument .badRange) := by
  simp only [runReadMatch, args, fieldAt_first, fieldAt_second, badRange]

/-- The role is judged before the range (R36, R183). -/
theorem runReadProgram_badRole (args : r.args = [role, first, count]) (bad : 1 < role.toNat) :
    runReadProgram r s = .answer s (Answer.badArgument .badValue) := by
  simp only [runReadProgram, args, fieldAt_first, if_pos bad, badValue]

theorem runReadProgram_eq (args : r.args = [role, first, count]) (legal : role.toNat ≤ 1) :
    runReadProgram r s =
      if rangeLegal first.toNat count.toNat 32 then
        .answer s (Answer.okay
          (if role.toNat = 0 then
            programResult 0 s.programs.active s.programs.activeBank s.programs.commitPending first.toNat count.toNat
          else programResult 1 s.programs.staged s.programs.stagedBank s.programs.commitPending first.toNat count.toNat))
      else .answer s (Answer.badArgument .badRange) := by
  simp only [runReadProgram, args, fieldAt_first, fieldAt_second, fieldAt_third, if_neg legal.not_gt, badRange]
  by_cases active : role.toNat = 0
  · simp only [if_pos active]
  · simp only [if_neg active]

theorem runReadCounters_group {g : Group} (args : r.args = [selector]) (known : groupOf selector.toNat = some g) :
    runReadCounters r s = .answer s
      (Answer.okay (selector :: (groupValues s.counters g).flatMap (fun v => bigEndian 4 v.toNat))) := by
  simp [runReadCounters, args, fieldAt_first, known, groupResult]

theorem runReadCounters_unknown (args : r.args = [selector]) (unknown : groupOf selector.toNat = none) :
    runReadCounters r s = .answer s (Answer.badArgument .badValue) := by
  simp [runReadCounters, args, fieldAt_first, unknown, badValue]

end

/-- Settles O36: the identifiers and the values item by item, and each read as it runs with its slot gone from the FIFO. -/
theorem readsAnswered : Obligations.ReadsAnswered := by
  refine ⟨⟨by decide, configIdOf_quota, by decide, configIdOf_eq_none_iff⟩,
    fun c p q => ⟨rfl, rfl, rfl, rfl, bigEndian_one _, bigEndian_one _, bigEndian_one _, rfl, rfl, rfl, rfl, rfl, rfl, rfl,
      bigEndian_one _, configValue_length c, fun n item => configItemBytes_of_id c⟩,
    fun _ _ => rfl, programResult_eq, ?reads⟩
  rintro s slot rest r u rfl rfl
  refine ⟨fun h empty => answers_open (exec_identify s) h (congrArg List.length empty) rfl,
    fun h empty => answers_open (exec_readStatus s) h (congrArg List.length empty) rfl,
    fun id h args => ?config, fun first count h args => ?table, fun role first count h args => ?program,
    fun selector h args => ?counters, fun x listed h wrong => ?length⟩
  case config =>
    have done {a : Answer} :=
      answers_open (a := a) (u := takeSlot rest s) (run := runReadConfig) rfl h (congrArg List.length args)
    exact ⟨fun item known => done (runReadConfig_item _ args known), fun all => done (runReadConfig_all _ (all ▸ args)),
      fun unknown single => done (runReadConfig_unknown _ args unknown single)⟩
  case table =>
    have done {a : Answer} :=
      answers_open (a := a) (u := takeSlot rest s) (run := runReadMatch) rfl h (congrArg List.length args)
    have legal := rangeLegal_iff_last first.toNat count.toNat 63
    exact ⟨fun range => done ((runReadMatch_eq _ args).trans (if_pos (legal.mpr range))),
      fun range => done ((runReadMatch_eq _ args).trans (if_neg (mt legal.mp range)))⟩
  case program =>
    have done {a : Answer} :=
      answers_open (a := a) (u := takeSlot rest s) (run := runReadProgram) rfl h (congrArg List.length args)
    have legal := rangeLegal_iff_last first.toNat count.toNat 31
    refine ⟨fun bad => done (runReadProgram_badRole _ args bad),
      fun role range => done ((runReadProgram_eq _ args role).trans (if_neg (mt legal.mp range))), fun range => ⟨?_, ?_⟩⟩
    all_goals
      rintro rfl
      exact done ((runReadProgram_eq _ args (by decide)).trans (if_pos (legal.mpr range)))
  case counters =>
    have done {a : Answer} :=
      answers_open (a := a) (u := takeSlot rest s) (run := runReadCounters) rfl h (congrArg List.length args)
    exact ⟨fun g known => done (runReadCounters_group _ args known),
      fun unknown => done (runReadCounters_unknown _ args unknown)⟩
  case length =>
    obtain ⟨run, means⟩ := exec_openArguments s x listed
    exact answers_badLength means h wrong

end Sys2Proof.Machine
end

section
/-! PROOF. The evaluation of a port's queues (R67 to R70, R72, R124): the heads that it passes over are held in their order, and then the first
head that passes the guard is started. -/

namespace Sys2Proof.Machine

/-! ### Counts of guard holds -/

theorem Count.upBy_add (m : Nat) : ∀ (n : Nat) (c : Count), Count.upBy m (Count.upBy n c) = Count.upBy (n + m) c
  | 0, c => by rw [Nat.zero_add, Count.upBy]
  | n + 1, c => by rw [Count.upBy, Count.upBy_add m n, Nat.succ_add, Count.upBy]

/-- Among distinct values, the first of a list is one beside those that differ from it. -/
theorem length_dedup_cons {α : Type} [DecidableEq α] (x : α) (xs : List α) :
    (x :: xs).dedup.length = (xs.filter (· ≠ x)).dedup.length + 1 := by
  have fresh : x ∉ (xs.filter (· ≠ x)).dedup := by simp
  have same : (x :: xs).dedup.Perm (x :: (xs.filter (· ≠ x)).dedup) :=
    (List.perm_ext_iff_of_nodup (List.nodup_dedup _) (List.nodup_cons.mpr ⟨fresh, List.nodup_dedup _⟩)).mpr fun y => by
      by_cases first : y = x <;> simp [first]
  simpa using same.length_eq

/-- Guard holds have been counted at a port (R70). -/
def State.guardHoldsCounted (s : State) (p : Port) (n : Nat) : State :=
  s.countPort p (fun c => { c with guardHolds := Count.upBy n c.guardHolds })

theorem State.guardHoldsCounted_zero (s : State) (p : Port) : (s.guardHoldsCounted p 0).counters = s.counters := by
  cases p <;> rfl

theorem State.guardHoldsCounted_add {s t : State} {p : Port} {n : Nat} (h : t.counters = (s.guardHoldsCounted p n).counters)
    (m : Nat) : (t.guardHoldsCounted p m).counters = (s.guardHoldsCounted p (n + m)).counters := by
  simp only [guardHoldsCounted, countPort_fields] at h ⊢
  cases p <;> simp [h, Pair.modify, Pair.set, Count.upBy_add]

/-! ### Heads that are held -/

/-- The records of a list whose guard-held flag is clear, each once. -/
def State.unflagged (s : State) (hs : List Handle) : List Handle := (hs.filter (fun h => !(s.record h).guardHeld)).dedup

/-- The heads have been held, one after another (R70). -/
def holdHeads (p : Port) : List Handle → State → State
  | [], s => s
  | h :: hs, s => holdHeads p hs (holdHead p h s)

section
variable (p : Port) (h k : Handle) (hs : List Handle) (s : State)

theorem holdHead_same : s.sameButTraffic (holdHead p h s) := (trafficKeeps_same s).hold s p h (.refl s)

theorem holdHead_egress : (holdHead p h s).egress = s.egress := by
  unfold holdHead
  split <;> rfl

theorem holdHead_pool : (holdHead p h s).pool = { s.pool with records := (holdHead p h s).pool.records } := by
  unfold holdHead
  split <;> rfl

/-- To flag a record that is flagged changes no flag. -/
theorem guardHeld_or_of_flagged (flagged : (s.record h).guardHeld = true) :
    ((s.record k).guardHeld || decide (k = h)) = (s.record k).guardHeld := by
  by_cases held : k = h <;> simp [held, flagged]

/-- A held head is flagged; nothing else of any record changes (R70). -/
theorem record_holdHead :
    (holdHead p h s).record k = { s.record k with guardHeld := (s.record k).guardHeld || decide (k = h) } := by
  unfold holdHead
  split
  next flagged => rw [guardHeld_or_of_flagged h k s flagged]
  next =>
    refine (s.record_setRecord h k _).trans ?_
    by_cases held : k = h
    · simp only [held, if_true, decide_true, Bool.or_true]
    · simp only [held, if_false, decide_false, Bool.or_false]

/-- A held head is counted when it was not flagged (R70). -/
theorem holdHead_counters :
    (holdHead p h s).counters = (s.guardHoldsCounted p (if (s.record h).guardHeld then 0 else 1)).counters := by
  unfold holdHead
  split
  · exact (s.guardHoldsCounted_zero p).symm
  · rfl

/-- A head that is held is one more among the unflagged heads, unless it is flagged already. -/
theorem length_unflagged_cons :
    (s.unflagged (h :: hs)).length
      = (if (s.record h).guardHeld then 0 else 1) + ((holdHead p h s).unflagged hs).length := by
  simp only [State.unflagged, record_holdHead]
  cases flagged : (s.record h).guardHeld with
  | true =>
    simp [guardHeld_or_of_flagged h _ s flagged, flagged]
  | false =>
    rw [List.filter_cons_of_pos (by simp [flagged]), length_dedup_cons, List.filter_filter]
    simp [Nat.add_comm, Bool.and_comm]

theorem holdHeads_same : s.sameButTraffic (holdHeads p hs s) := by
  induction hs generalizing s with
  | nil => exact .refl s
  | cons h hs ih => exact (holdHead_same p h s).trans (ih _)

theorem holdHeads_egress : (holdHeads p hs s).egress = s.egress := by
  induction hs generalizing s with
  | nil => rfl
  | cons h hs ih => exact (ih _).trans (holdHead_egress p h s)

theorem holdHeads_pool : (holdHeads p hs s).pool = { s.pool with records := (holdHeads p hs s).pool.records } := by
  induction hs generalizing s with
  | nil => rfl
  | cons h hs ih => rw [holdHeads, ih, holdHead_pool]

/-- The held heads are flagged (R70). -/
theorem record_holdHeads :
    (holdHeads p hs s).record k = { s.record k with guardHeld := (s.record k).guardHeld || hs.contains k } := by
  induction hs generalizing s with
  | nil => simp [holdHeads]
  | cons h hs ih => simp [holdHeads, ih, record_holdHead, Bool.or_assoc]

/-- The held heads that were not flagged are counted, each once (R70). -/
theorem holdHeads_counters :
    (holdHeads p hs s).counters = (s.guardHoldsCounted p (s.unflagged hs).length).counters := by
  induction hs generalizing s with
  | nil => exact (s.guardHoldsCounted_zero p).symm
  | cons h hs ih =>
    rw [holdHeads, ih, length_unflagged_cons p]
    exact State.guardHoldsCounted_add (holdHead_counters p h s) _

end

/-! ### The queues in their order -/

/-- The heads of the open queues of a list that come before the first whose head passes the guard (R68, R70). -/
def State.headsBefore (s : State) (p : Port) (qs : List QueueName) : List Handle :=
  ((qs.takeWhile (fun q => !s.headPasses p q)).filter
    (fun q => GateSet.opens (s.sched p).presentation.gates q)).filterMap (fun q => (s.queue p q).records.head?)

/-- The head of the queue found is started; with none found, nothing is (R68). -/
def startFound (p : Port) (found : Option QueueName) (s : State) : State :=
  match found with
  | none => s
  | some q =>
    match (s.queue p q).records with
    | [] => s
    | h :: rest => startHead p q h rest s

section
variable {p : Port} {s : State} {q : QueueName} {qs : List QueueName} {h : Handle} {rest : List Handle}

theorem State.queue_congr {s t : State} (e : t.egress = s.egress) (p : Port) (q : QueueName) : t.queue p q = s.queue p q := by
  rw [State.queue, State.sched, e, State.queue, State.sched]

/-- Whether a head passes the guard does not turn on the flags (R69). -/
theorem headPasses_holdHead (h : Handle) (q : QueueName) : (holdHead p h s).headPasses p q = s.headPasses p q := by
  simp only [State.headPasses, State.recordTime, holdHead_sched, State.queue_congr (holdHead_egress p h s),
    (holdHead_same p h s).speed, (holdHead_same p h s).fields, record_holdHead]

theorem headsBefore_holdHead (h : Handle) : (holdHead p h s).headsBefore p qs = s.headsBefore p qs := by
  simp only [State.headsBefore, headPasses_holdHead, holdHead_sched, State.queue_congr (holdHead_egress p h s)]

/-- Queues are considered by holding the heads before the first that passes, and starting that one (R68, R70, R72). -/
theorem considerQueues_eq (qs : List QueueName) (s : State) :
    considerQueues p qs s = startFound p (qs.find? (s.headPasses p)) (holdHeads p (s.headsBefore p qs) s) := by
  induction qs generalizing s with
  | nil => rfl
  | cons q qs ih =>
    rw [considerQueues]
    cases opened : GateSet.opens (s.sched p).presentation.gates q with
    | false =>
      have fails : s.headPasses p q = false := by simp [State.headPasses, opened]
      simp [ih, fails, State.headsBefore, opened]
    | true =>
      cases waiting : (s.queue p q).records with
      | nil =>
        have fails : s.headPasses p q = false := by simp [State.headPasses, waiting]
        simp [ih, fails, State.headsBefore, opened, waiting]
      | cons h rest =>
        have judged : s.headPasses p q = guardPasses (s.sched p).presentation.limit s.time (s.recordTime p h) := by
          simp [State.headPasses, opened, waiting]
        cases passes : guardPasses (s.sched p).presentation.limit s.time (s.recordTime p h) with
        | true =>
          simp [judged, passes, State.headsBefore, holdHeads, startFound, waiting]
        | false =>
          have before : s.headsBefore p (q :: qs) = h :: s.headsBefore p qs := by
            simp [State.headsBefore, judged, passes, opened, waiting]
          have found : qs.find? ((holdHead p h s).headPasses p) = qs.find? (s.headPasses p) :=
            congrArg (qs.find? ·) (funext fun q => headPasses_holdHead h q)
          simp [ih, judged, passes, before, found, headsBefore_holdHead, holdHeads]

/-- An evaluation that is made holds the heads it passes over and starts the first that passes (R67, R68). -/
theorem evaluate_eq (idle : (s.sched p).inFlight = none) (up : (s.port p).link = .up) :
    evaluate p s = startFound p (priorityOrder.find? (s.headPasses p)) (holdHeads p (s.heldHeads p) s) := by
  rw [evaluate, if_pos (by simp [idle, up]), considerQueues_eq]
  rfl

/-- With a transmission in progress or the link DOWN no evaluation is made (R67). -/
theorem evaluate_not_made (h : (s.sched p).inFlight ≠ none ∨ (s.port p).link = .down) : evaluate p s = s := by
  refine if_neg fun made => ?_
  simp only [Bool.and_eq_true, Option.isNone_iff_eq_none, beq_iff_eq] at made
  obtain ⟨idle, up⟩ := made
  rcases h with busy | down
  · exact busy idle
  · simp [up] at down

/-- A queue whose head passes holds a record. -/
theorem State.headPasses.records (passes : s.headPasses p q = true) : ∃ h rest, (s.queue p q).records = h :: rest := by
  cases waiting : (s.queue p q).records with
  | nil => simp [State.headPasses, waiting] at passes
  | cons h rest => exact ⟨h, rest, rfl⟩

/-! ### The start of a head -/

theorem startHead_same : s.sameButTraffic (startHead p q h rest s) := rfl

theorem sched_startHead_opposite : (startHead p q h rest s).sched p.opposite = s.sched p.opposite := by
  cases p <;> rfl

theorem presentation_startHead : ((startHead p q h rest s).sched p).presentation = (s.sched p).presentation := by
  cases p <;> rfl

theorem inFlight_startHead :
    ((startHead p q h rest s).sched p).inFlight = some ⟨h, s.time, Time.plus s.time (s.recordTime p h), false⟩ := by
  cases p <;> rfl

/-- The head leaves its queue, whose counts fall; the other queues stand (R124). -/
theorem queue_startHead (u : QueueName) :
    (startHead p q h rest s).queue p u
      = if u = q then ⟨rest, (s.queue p q).frames - 1, (s.queue p q).cells - (s.record h).cells.length⟩
        else s.queue p u := by
  simp only [startHead, State.queue_setInFlight, State.queue_setQueue, true_and]

/-- Starting a head or none leaves alone all but the port's queues and its transmitter. -/
theorem startFound_leaves (found : Option QueueName) :
    s.sameButTraffic (startFound p found s)
      ∧ (startFound p found s).sched p.opposite = s.sched p.opposite
      ∧ ((startFound p found s).sched p).presentation = (s.sched p).presentation
      ∧ (startFound p found s).pool = s.pool
      ∧ (startFound p found s).counters = s.counters := by
  unfold startFound
  split
  · exact ⟨.refl s, rfl, rfl, rfl, rfl⟩
  · split
    · exact ⟨.refl s, rfl, rfl, rfl, rfl⟩
    · exact ⟨startHead_same, sched_startHead_opposite, presentation_startHead, rfl, rfl⟩

end

/-- Settles O16: an evaluation holds the heads before the first that passes and then starts that one. -/
theorem evaluationStartsFirstPassingHead : Obligations.EvaluationStartsFirstPassingHead := by
  refine ⟨⟨rfl, rfl, fun _ _ => rfl⟩, fun p s => ⟨fun idle up => ?made, evaluate_not_made⟩⟩
  case made =>
    rw [evaluate_eq idle up]
    generalize held : holdHeads p (s.heldHeads p) s = u
    have traffic : s.sameButTraffic u := held ▸ holdHeads_same p _ s
    have egress : u.egress = s.egress := held ▸ holdHeads_egress p _ s
    have records : ∀ h, u.record h
        = { s.record h with guardHeld := (s.record h).guardHeld || (s.heldHeads p).contains h } :=
      fun h => held ▸ record_holdHeads p h _ s
    have sched : ∀ r, u.sched r = s.sched r := fun r => congrArg (Pair.get · r) egress
    have queues : ∀ q, u.queue p q = s.queue p q := State.queue_congr egress p
    obtain ⟨same, opposite, presentation, pool, counters⟩ :=
      startFound_leaves (p := p) (s := u) (priorityOrder.find? (s.headPasses p))
    refine ⟨traffic.trans same, opposite.trans (sched _), presentation.trans (by rw [sched]), ?_, fun h => ?_, ?_, ?_⟩
    · rw [pool, ← held]
      exact holdHeads_pool p _ s
    · rw [State.record, pool]
      exact records h
    · rw [counters, ← held]
      exact holdHeads_counters p _ s
    · cases found : priorityOrder.find? (s.headPasses p) with
      | none => exact ⟨(congrArg Egress.inFlight (sched p)).trans idle, queues⟩
      | some q =>
        obtain ⟨h, rest, waiting⟩ := State.headPasses.records (List.find?_some found)
        have started : startFound p (some q) u = startHead p q h rest u := by simp [startFound, queues, waiting]
        obtain ⟨time, -⟩ := traffic.fields
        have duration : u.recordTime p h = s.recordTime p h := by simp only [State.recordTime, traffic.speed, records]
        simp only [started, inFlight_startHead, queue_startHead, queues, records, time, duration]
        exact ⟨h, rest, waiting, rfl, if_pos trivial, fun v other => if_neg other⟩

end Sys2Proof.Machine
end

section
/-! PROOF. Transmission completion and abort (R74, R75, R125): both free the record in flight and leave the transmitter idle. -/

namespace Sys2Proof.Machine

/-! ### Aborts -/

section
variable {p : Port} {s : State} {f : InFlight}

theorem abortTransmission_eq (flying : (s.sched p).inFlight = some f) :
    abortTransmission p s = (freeRecord f.record s).setInFlight p none := by
  simp only [abortTransmission, flying]

/-- The record in flight is freed with its flag cleared; the other records stand (R125). -/
theorem record_abortTransmission (flying : (s.sched p).inFlight = some f) (h : Handle) :
    (abortTransmission p s).record h = if h = f.record then FrameRecord.blank else s.record h := by
  rw [abortTransmission_eq flying]
  exact record_freeRecord s f.record h

theorem abortTransmission_counters (p : Port) (s : State) : (abortTransmission p s).counters = s.counters := by
  unfold abortTransmission
  split <;> rfl

/-- The transmitter is idle; the queues and the presentation stand (R75). -/
theorem sched_abortTransmission (p : Port) (s : State) :
    (abortTransmission p s).sched p = { s.sched p with inFlight := none } := by
  rw [State.sched, (abortTransmission_frees p s).2, Pair.get_set_same]

/-- The record in flight and its cells join the back of the free lists (R125). -/
theorem abortTransmission_freeLists (flying : (s.sched p).inFlight = some f) :
    (abortTransmission p s).pool.freeCells = s.pool.freeCells ++ (s.record f.record).cells
      ∧ (abortTransmission p s).pool.freeRecords = s.pool.freeRecords ++ [f.record] := by
  rw [abortTransmission_eq flying]
  exact ⟨rfl, rfl⟩

/-! ### Completions -/

/-- The frame has been counted as transmitted, its record is freed and the transmitter is idle (R74, R125): freed as an abort frees it. -/
def State.transmitted (s : State) (p : Port) : State :=
  abortTransmission p (s.countPort p (fun c => { c with transmitted := Count.up c.transmitted }))

theorem completeTransmission_eq (flying : (s.sched p).inFlight = some f) :
    completeTransmission p f s
      = evaluate p (if s.agent.session.isOpen = true ∧ s.agent.session.ownerPort = p then offerAllNotices (s.transmitted p)
          else s.transmitted p) := by
  have freed : s.transmitted p = _ := abortTransmission_eq (s := s.countPort p _) flying
  rw [freed]
  rfl

theorem exec_transmissionCompletion_due (released : s.inReset = false) (flying : (s.sched p).inFlight = some f)
    (due : f.due = s.time) : exec (.transmissionCompletion p) s = .next (completeTransmission p f s) := by
  refine congrArg Host.Outcome.next ((outsideReset_released released _).trans ?_)
  simp only [flying, if_pos due]

/-- An expiry with no completion due delivers nothing (R93). -/
theorem exec_transmissionCompletion_notDue (late : ∀ f, (s.sched p).inFlight = some f → f.due ≠ s.time) :
    exec (.transmissionCompletion p) s = .next s := by
  refine congrArg Host.Outcome.next ?_
  unfold outsideReset
  split
  · rfl
  · cases flying : (s.sched p).inFlight with
    | none => simp only [flying]
    | some f => simp only [flying, if_neg (late f flying)]

end

/-- Settles O19: a completion is an abort of a counted frame, and then an evaluation. -/
theorem transmissionCompletes : Obligations.TransmissionCompletes := by
  refine ⟨fun p s f released flying due => ?completes, fun p s f flying => ?aborts,
    fun p s => exec_transmissionCompletion_notDue⟩
  case completes =>
    let counted := s.countPort p (fun c => { c with transmitted := Count.up c.transmitted })
    have flies : (counted.sched p).inFlight = some f := flying
    obtain ⟨cells, records⟩ := abortTransmission_freeLists flies
    have frees := (abortTransmission_frees p counted).1
    refine ⟨s.transmitted p, ?_, abortTransmission_same p counted, cells, records, ?_, frees.memory, fun h other => ?_,
      sched_abortTransmission p counted, frees.others, abortTransmission_counters p counted⟩
    · rw [exec_transmissionCompletion_due released flying due, completeTransmission_eq flying]
    · exact congrArg FrameRecord.guardHeld ((record_abortTransmission flies f.record).trans (if_pos rfl))
    · exact (record_abortTransmission flies h).trans (if_neg other)
  case aborts =>
    obtain ⟨cells, records⟩ := abortTransmission_freeLists flying
    exact ⟨cells, records, congrArg FrameRecord.guardHeld ((record_abortTransmission flying f.record).trans (if_pos rfl)),
      sched_abortTransmission p s, abortTransmission_counters p s⟩

end Sys2Proof.Machine
end

section
/-! PROOF. Admission (R117, R121, R122): the judgement in its order, what a refusal comes to, and what a stored frame leaves. -/

namespace Sys2Proof.Machine

/-! ### The judgement -/

section
variable (p : Port) (q : QueueName) (n : Nat) (s : State)

theorem admissionVerdict_eq_noRecord_iff : admissionVerdict p q n s = some .noRecord ↔ s.pool.freeRecords = [] := by
  simp only [admissionVerdict, List.isEmpty_iff]
  split_ifs <;> simp [*]

theorem admissionVerdict_eq_poolEmpty_iff :
    admissionVerdict p q n s = some .poolEmpty ↔
      s.pool.freeRecords ≠ [] ∧ s.pool.freeCells.length < cellsNeeded n := by
  simp only [admissionVerdict, List.isEmpty_iff]
  split_ifs <;> simp [*]

theorem admissionVerdict_eq_quota_iff :
    admissionVerdict p q n s = some .quota ↔
      s.pool.freeRecords ≠ [] ∧ cellsNeeded n ≤ s.pool.freeCells.length
        ∧ s.quota p q < (s.queue p q).cells + cellsNeeded n := by
  simp only [admissionVerdict, List.isEmpty_iff, ← not_lt]
  split_ifs <;> simp [*]

/-- A frame is accepted exactly when no condition fails (R121). -/
theorem admissionVerdict_eq_none_iff :
    admissionVerdict p q n s = none ↔
      s.pool.freeRecords ≠ [] ∧ cellsNeeded n ≤ s.pool.freeCells.length
        ∧ (s.queue p q).cells + cellsNeeded n ≤ s.quota p q := by
  simp only [admissionVerdict, List.isEmpty_iff, ← not_lt]
  split_ifs <;> simp [*]

end

/-! ### Refusals -/

section
variable {p : Port} {q : QueueName} {bytes : List Byte} {s : State} {reason : DropReason}

theorem offerForwarded_refused (h : admissionVerdict p q bytes.length s = some reason) :
    offerForwarded p q bytes s = countDrop p q reason s := by
  simp only [offerForwarded, h]

theorem offerResponse_refused (h : admissionVerdict p queueM bytes.length s = some reason) :
    offerResponse p bytes s
      = (countDrop p queueM reason s).countAgent (fun c => { c with responsesLost := Count.up c.responsesLost }) := by
  simp only [offerResponse, h]

/-- A refused notice ends the offers at the first one (R122, R179). -/
theorem offerAllNotices_refused {n : Notice} {rest : List Notice} (waiting : s.notices.records = n :: rest)
    (h : admissionVerdict s.agent.session.ownerPort queueM (noticeFrame s n).length s = some reason) :
    offerAllNotices s = s := by
  simp only [offerAllNotices, waiting, List.length_cons, offerNotices, h]

end

/-- Settles O20: the judgement by its four outcomes, and the refusals of the three sources of frames. -/
theorem admissionAndRefusal : Obligations.AdmissionAndRefusal :=
  ⟨fun p q n s => ⟨admissionVerdict_eq_noRecord_iff p q n s, admissionVerdict_eq_poolEmpty_iff p q n s,
      admissionVerdict_eq_quota_iff p q n s, admissionVerdict_eq_none_iff p q n s⟩,
    fun _ _ _ _ => ⟨fun _ => offerForwarded_refused, offerResponse_refused, fun _ _ => offerAllNotices_refused⟩⟩

/-! ### Stored frames -/

section
variable {p : Port} {q : QueueName} {bytes : List Byte} {s : State} {h : Handle} {rest : List Handle}

theorem offerForwarded_accepted (v : admissionVerdict p q bytes.length s = none) :
    offerForwarded p q bytes s = acceptFrame p q bytes s := by
  simp only [offerForwarded, v]

theorem offerResponse_accepted (v : admissionVerdict p queueM bytes.length s = none) :
    offerResponse p bytes s = acceptFrame p queueM bytes s := by
  simp only [offerResponse, v]

/-- An accepted frame is stored, and the scheduler evaluates when its queue held no record (R121). -/
theorem acceptFrame_eq (free : s.pool.freeRecords = h :: rest) :
    acceptFrame p q bytes s
      = if (s.queue p q).records = [] then evaluate p (storeAdmitted p q bytes h rest s)
        else storeAdmitted p q bytes h rest s := by
  simp only [acceptFrame, free, List.isEmpty_iff]

theorem storeAdmitted_same : s.sameButTraffic (storeAdmitted p q bytes h rest s) := rfl

/-- The record taken from the free list describes the frame; the other records stand (R121). -/
theorem record_storeAdmitted (k : Handle) :
    (storeAdmitted p q bytes h rest s).record k
      = if k = h then ⟨bytes.length, p, q, s.pool.freeCells.take (cellsNeeded bytes.length), false⟩ else s.record k :=
  s.record_setRecord h k _

/-- The record joins the back of its queue, and the counts of the queue rise; the other queues stand (R121). -/
theorem queue_storeAdmitted (r : Port) (v : QueueName) :
    (storeAdmitted p q bytes h rest s).queue r v
      = if r = p ∧ v = q then
          ⟨(s.queue p q).records ++ [h], (s.queue p q).frames + 1, (s.queue p q).cells + cellsNeeded bytes.length⟩
        else s.queue r v :=
  State.queue_setQueue _ p r q v _

theorem inFlight_storeAdmitted (r : Port) :
    ((storeAdmitted p q bytes h rest s).sched r).inFlight = (s.sched r).inFlight := by
  cases p <;> cases r <;> rfl

/-- With enough distinct free cells the stored frame is read back whole from the record (R117). -/
theorem frameBytes_storeAdmitted (distinct : s.pool.freeCells.Nodup)
    (enough : cellsNeeded bytes.length ≤ s.pool.freeCells.length) :
    (storeAdmitted p q bytes h rest s).frameBytes h = bytes := by
  have room : bytes.length ≤ 128 * (s.pool.freeCells.take (cellsNeeded bytes.length)).length := by
    rw [List.length_take_of_le enough, cellsNeeded]
    omega
  rw [State.frameBytes, record_storeAdmitted, if_pos rfl]
  exact loadFrame_storeFrame _ bytes s.pool.memory (distinct.sublist (List.take_sublist _ _)) room

end

/-- Settles O21: an accepted frame is stored in the record and the cells at the front of the free lists. -/
theorem acceptedFrameStored : Obligations.AcceptedFrameStored := by
  rintro p q bytes s n distinct rfl free enough room
  have accepted : admissionVerdict p q bytes.length s = none :=
    (admissionVerdict_eq_none_iff p q _ s).mpr ⟨free, enough, room⟩
  obtain ⟨h, rest, front⟩ := List.exists_cons_of_ne_nil free
  refine ⟨h, rest, storeAdmitted p q bytes h rest s, front, acceptFrame_eq front, offerForwarded_accepted accepted,
    ?response, storeAdmitted_same, rfl, rfl, ?record, fun k other => ?records, frameBytes_storeAdmitted distinct enough,
    storeFrame_read_other _ bytes s.pool.memory, ?queue, fun r v other => ?queues,
    fun r => ⟨inFlight_storeAdmitted r, storeAdmitted_presentation p r q bytes h rest s⟩, rfl⟩
  case response =>
    rintro rfl
    exact offerResponse_accepted accepted
  case record => exact (record_storeAdmitted h).trans (if_pos rfl)
  case records => exact (record_storeAdmitted k).trans (if_neg other)
  case queue => exact (queue_storeAdmitted p q).trans (if_pos ⟨rfl, rfl⟩)
  case queues => exact (queue_storeAdmitted r v).trans (if_neg other)

end Sys2Proof.Machine
end

section
/-! PROOF. COMMIT and CANCEL_COMMIT (R162 to R169): the judgements of a commit in order, what a well-formed bank comes to by the sequencer's
state, and the withdrawal of a pending commit. -/

namespace Sys2Proof.Machine

/-! ### The judgements of COMMIT -/

section
variable {s : State}

/-- A commit that is pending already refuses another before the staged bank is looked at (R162). -/
theorem runCommit_pending (r : Request) (pending : s.programs.commitPending = true) :
    runCommit r s = .answer s (Answer.refuse .commitPending) :=
  if_pos pending

theorem runCommit_invalid {f : ProgramFault} (r : Request) (absent : s.programs.commitPending = false)
    (fault : validate s.programs.stagedBank = some f) :
    runCommit r s = .answer s ⟨.programInvalid, 0, programFaultBytes f⟩ := by
  simp [runCommit, absent, fault]

theorem runCommit_wellFormed (r : Request) (absent : s.programs.commitPending = false)
    (sound : s.programs.stagedBank.wellFormed = true) : runCommit r s = commitBank s := by
  have passed : validate s.programs.stagedBank = none := (Bank.wellFormed_iff_validate _).mp sound
  simp [runCommit, absent, passed]

/-- A sequencer that follows a program leaves the commit pending (R164). -/
theorem commitBank_following (follows : s.sequencer.state.follows = true) :
    commitBank s = .answer { s with programs := { s.programs with commitPending := true } }
      ⟨.ok, flagPending, [bankByte s.programs.staged]⟩ :=
  if_pos follows

/-- In STOPPED and FREE the banks are swapped at once (R163). -/
theorem commitBank_idle (idle : s.sequencer.state.follows = false) :
    commitBank s = .answer (swapBanks .immediate s.sequencer.cycle s) ⟨.ok, flagApplied, [bankByte s.programs.staged]⟩ := by
  simp [commitBank, idle]

/-! ### The judgement of CANCEL_COMMIT -/

theorem runCancelCommit_pending (r : Request) (pending : s.programs.commitPending = true) :
    runCancelCommit r s = .answer (raiseNotice (.commitCancelled s.programs.staged) s.sequencer.cycle
      { s with programs := { s.programs with commitPending := false } }) (Answer.okay []) :=
  if_pos pending

theorem runCancelCommit_absent (r : Request) (absent : s.programs.commitPending = false) :
    runCancelCommit r s = .answer s (Answer.refuse .noCommit) := by
  simp [runCancelCommit, absent]

end

/-! ### The two rows -/

theorem exec_commit (s : State) : exec .commit s = takeOwned .commit (withoutArguments runCommit) s := rfl

theorem exec_cancelCommit (s : State) :
    exec .cancelCommit s = takeOwned .cancelCommit (withoutArguments runCancelCommit) s := rfl

/-- An owner's request without arguments passes the check of its length, and runs (R183). -/
theorem executes_withoutArguments {row : Instr} {run : Request → State → Verdict} {s u : State} {slot : Slot}
    {rest : List Slot} {a : Answer} (means : exec row s = takeOwned row (withoutArguments run) s)
    (h : s.serves row slot rest) (owner : s.ownersNext (requestOf slot)) (empty : (requestOf slot).args = [])
    (answer : run (requestOf slot) (s.owned rest) = .answer u a) : executes row s (requestOf slot) a u := by
  have runs : withoutArguments run (requestOf slot) (s.owned rest) = .answer u a :=
    (if_pos (List.isEmpty_iff.mpr empty)).trans answer
  exact means.trans (takeOwned_answer h owner runs)

/-- Settles O44: each row runs its judgements in order, on banks and a sequencer that taking the request leaves alone. -/
theorem commitAndCancel : Obligations.CommitAndCancel := by
  refine ⟨rfl, fun _ _ _ => rfl, ?commit, ?cancel⟩
  case commit =>
    rintro s slot rest r h rfl owner empty
    have done {u : State} {a : Answer} := executes_withoutArguments (u := u) (a := a) (exec_commit s) h owner empty
    refine ⟨fun pending => done (runCommit_pending _ pending), fun f absent fault => done (runCommit_invalid _ absent fault),
      fun absent sound => ?_⟩
    have judged : runCommit (requestOf slot) (s.owned rest) = commitBank (s.owned rest) :=
      runCommit_wellFormed _ absent sound
    exact ⟨fun follows => done (judged.trans (commitBank_following follows)),
      fun idle => done (judged.trans (commitBank_idle idle))⟩
  case cancel =>
    rintro s slot rest r h rfl owner empty
    have done {u : State} {a : Answer} := executes_withoutArguments (u := u) (a := a) (exec_cancelCommit s) h owner empty
    exact ⟨fun pending => done (runCancelCommit_pending _ pending), fun absent => done (runCancelCommit_absent _ absent)⟩

end Sys2Proof.Machine
end

section
/-! PROOF. What a step is made of: the primitive moves of the part, and the induction over them, once. A property that every primitive move keeps
is kept by every request and every event, and so by every step. -/

namespace Sys2Proof.Machine

/-! ### The primitive moves -/

/-- The programs' part of `State.programsSound` (R24, R27, R35). -/
def ProgramStore.sound (ps : ProgramStore) : Prop :=
  ps.activeBank.wellFormed = true ∧ (ps.commitPending = true → ps.stagedBank.wellFormed = true)
    ∧ ps.bank0.entriesLegal = true ∧ ps.bank1.entriesLegal = true

theorem State.programsSound_iff (s : State) : s.programsSound ↔ s.programs.sound := Iff.rfl

/-- The history holds at most 16 spans, as many as captured (R2). -/
def Tracker.counted (t : Tracker) : Prop := t.history.length ≤ 16 ∧ t.captures = t.history.length

/-- A property that the moves of the request path keep: those of traffic and notices, of the FIFO and of an open session. A field that the property
does not read need not be named: a move that changes such fields alone keeps it as it stands. -/
structure AgentKeeps (P : State → Prop) : Prop extends NoticeKeeps P where
  drop := by intros; assumption
  agent := by intros; assumption
  join := by intros; assumption
  lost := by intros; assumption
  sent := by intros; assumption
  fifo : ∀ s slots b, (s.agent.fifo.length ≤ 4 → slots.length ≤ 4) → P s →
    P { s with agent := { s.agent with fifo := slots, serviced := b } } := by intros; assumption
  session : ∀ s v, v.isOpen = true → v.leaseWait = some v.leaseExpiry →
    (s.agent.session.leaseInRange = true → v.leaseInRange = true) → P s → P (s.setSession v) := by intros; assumption
  record : ∀ s r a, s.agent.session.isOpen = true → P s → P (recordRequest r a s) := by intros; assumption

/-- A property that the end of a session keeps as well. -/
structure ServeKeeps (P : State → Prop) : Prop extends AgentKeeps P where
  ended : ∀ s, P s → P (endSession s) := by intros; assumption

/-- A property that the primitive moves of events and requests keep. -/
structure RunKeeps (P : State → Prop) : Prop extends AgentKeeps P, GateKeeps P, FlushKeeps P where
  present := by intros; assumption
  counters : ∀ s c, P s → P { s with counters := c } := by intros; assumption
  classifier : ∀ s c, P s → P { s with classifier := c } := by intros; assumption
  walk : ∀ s q b, P s → P { s with sequencer := q, pins := { s.pins with syncOut := b } } := by intros; assumption
  tracker : ∀ s t b, (s.tracker.counted → t.counted) → P s →
    P { s with tracker := t, pins := { s.pins with lock := b } } := by intros; assumption
  programs : ∀ s ps, (s.programs.sound → ps.sound) → P s → P { s with programs := ps } := by intros; assumption
  config : ∀ s c, (s.config.wellFormed = true → c.wellFormed = true) → P s → P { s with config := c } := by intros; assumption
  phy : ∀ s x, P s → P { s with pins := { s.pins with phy := x } } := by intros; assumption
  receiver : ∀ s p r, ((s.port p).link = .down → (s.port p).receiver = Receiver.idle → r = Receiver.idle) → P s →
    P (s.setPort p { s.port p with receiver := r }) := by intros; assumption
  linkUp : ∀ s p, P s → P (s.setLink p .up) := by intros; assumption
  linkDown : ∀ s p, P s → P (discardInFlight p (releaseReceiver p (s.setLink p .down)))

/-- A property that every primitive move keeps: those of events and requests, the end of a session, a reset, and the passing of time. -/
structure MoveKeeps (P : State → Prop) : Prop extends RunKeeps P, ServeKeeps P where
  powerOn : ∀ straps b phy k is, P (State.powerOn straps b phy k is)
  time : ∀ s t k es is, P s → P { s with time := t, tieCount := k, handed := es, pending := is } := by intros; assumption

/-- A property of what traffic leaves alone is kept by the moves of traffic. -/
theorem trafficFree {P : State → Prop} (h : ∀ s t : State, s.sameButTraffic t → P s → P t) : GateKeeps P ∧ FlushKeeps P where
  left :=
    { hold := fun s p x => h s _ ((trafficKeeps_same s).hold s p x (.refl s))
      start := fun s _ _ _ _ _ _ _ => h s _ rfl
      store := fun s _ _ _ _ _ _ _ => h s _ rfl
      drop := fun s _ _ _ => h s _ rfl
      agent := fun s _ => h s _ rfl
      present := fun s _ _ => h s _ rfl
      flag := fun s _ _ _ => h s _ rfl }
  right :=
    { abort := fun s _ _ _ => h s _ rfl
      queue := fun s p q => h s _ ((flushKeeps_same s).queue s p q (.refl s)) }

theorem discardInFlight_same (p : Port) (s : State) : s.sameButTraffic (discardInFlight p s) := by
  unfold discardInFlight
  split
  · exact State.sameButTraffic.trans (t := s.countPort p _) rfl (abortTransmission_same p _)
  · exact .refl s

theorem State.sameButTraffic.agent {s t : State} (h : s.sameButTraffic t) : t.agent = s.agent := by
  obtain ⟨-, -, -, -, -, -, -, -, agent, -⟩ := h.fields
  exact agent

/-- What an event or a request does short of a session end leaves an open session open. -/
theorem RunKeeps.opened {P : State → Prop} (k : RunKeeps P) :
    RunKeeps (fun s => P s ∧ s.agent.session.isOpen = true) where
  hold s p x h := ⟨k.hold s p x h.1, by rw [((trafficKeeps_same s).hold s p x (.refl s)).agent]; exact h.2⟩
  start s p q x rest idle up hd h := ⟨k.start s p q x rest idle up hd h.1, h.2⟩
  store s p q b x rest free room h := ⟨k.store s p q b x rest free room h.1, h.2⟩
  drop s p q r h := ⟨k.drop s p q r h.1, h.2⟩
  agent s f h := ⟨k.agent s f h.1, h.2⟩
  join s n o room h := ⟨k.join s n o room h.1, h.2⟩
  lost s o h := ⟨k.lost s o h.1, h.2⟩
  sent s n rest hd h := ⟨k.sent s n rest hd h.1, h.2⟩
  present s p x h := ⟨k.present s p x h.1, h.2⟩
  flag s p f hf h := ⟨k.flag s p f hf h.1, h.2⟩
  abort s p f hf h := ⟨k.abort s p f hf h.1, h.2⟩
  queue s p q h := ⟨k.queue s p q h.1, by rw [((flushKeeps_same s).queue s p q (.refl s)).agent]; exact h.2⟩
  counters s c h := ⟨k.counters s c h.1, h.2⟩
  classifier s c h := ⟨k.classifier s c h.1, h.2⟩
  walk s q b h := ⟨k.walk s q b h.1, h.2⟩
  tracker s t b ht h := ⟨k.tracker s t b ht h.1, h.2⟩
  programs s ps hp h := ⟨k.programs s ps hp h.1, h.2⟩
  config s c hc h := ⟨k.config s c hc h.1, h.2⟩
  fifo s slots b hf h := ⟨k.fifo s slots b hf h.1, h.2⟩
  session s v o w l h := ⟨k.session s v o w l h.1, o⟩
  record s r a o h := ⟨k.record s r a o h.1, o⟩
  phy s x h := ⟨k.phy s x h.1, h.2⟩
  receiver s p r hr h := ⟨k.receiver s p r hr h.1, h.2⟩
  linkUp s p h := ⟨k.linkUp s p h.1, h.2⟩
  linkDown s p h := ⟨k.linkDown s p h.1, by rw [(discardInFlight_same p _).agent]; exact h.2⟩

/-! ### What the guards ask for -/

/-- The swap exchanges the roles of two well-formed banks (R165). -/
theorem ProgramStore.sound_swap {ps : ProgramStore} (staged : ps.sound → ps.stagedBank.wellFormed = true) (h : ps.sound) :
    ({ ps with active := ps.staged, commitPending := false } : ProgramStore).sound := by
  refine ⟨?_, fun c => (nomatch c), h.2.2⟩
  rw [ProgramStore.activeBank_swap]
  exact staged h

theorem Tracker.cleared_counted (t : Tracker) (st : TrackerState) : (t.cleared st).counted := ⟨Nat.zero_le _, rfl⟩

/-- A captured span is counted with the others (R2). -/
theorem Tracker.capture_counted {t : Tracker} (span : Nat) (h : t.counted) : (t.capture span).counted := by
  obtain ⟨_, same⟩ := h
  constructor
  · simp [Tracker.capture, Config.historyLength]
  · simp [Tracker.capture, Config.historyLength, same]
    omega

theorem examineSpan_counted (t : Time) (s : State) (h : s.tracker.counted) : (examineSpan t s).counted := by
  unfold examineSpan
  simp only
  split
  · exact Tracker.capture_counted _ h
  · exact h

/-! ### The walk -/

section
variable {P : State → Prop} (k : RunKeeps P)
include k

theorem RunKeeps.sequencer (s : State) (q : Sequencer) (h : P s) : P { s with sequencer := q } :=
  k.walk s q s.pins.syncOut h

theorem RunKeeps.presentTo (p : Port) (x : Presentation) (s : State) (h : P s) : P (Machine.presentTo p x s) := by
  unfold Machine.presentTo
  split
  · exact h
  · exact k.toGateKeeps.takeGateChange p x _ (k.sequencer s _ h)

theorem RunKeeps.presentBoth (x : Pair Presentation) (s : State) (h : P s) : P (Machine.presentBoth x s) :=
  k.presentTo .b x.b _ (k.presentTo .a x.a s h)

theorem RunKeeps.swapBanks (o : Occasion) (c : Count) (s : State)
    (staged : s.programs.sound → s.programs.stagedBank.wellFormed = true) (h : P s) : P (Machine.swapBanks o c s) :=
  k.toNoticeKeeps.raiseNotice _ c _ (k.programs s _ (ProgramStore.sound_swap staged) h)

theorem RunKeeps.applyPendingCommit (o : Occasion) (c : Count) (s : State) (h : P s) :
    P (Machine.applyPendingCommit o c s) := by
  unfold Machine.applyPendingCommit
  split
  · rename_i pending
    exact k.swapBanks o c s (fun sound => sound.2.1 pending) h
  · exact h

theorem RunKeeps.leaveEntry (s : State) (h : P s) : P (Machine.leaveEntry s) := by
  unfold Machine.leaveEntry
  simp only
  split
  · exact k.counters _ _ (k.sequencer s _ h)
  · exact k.sequencer s _ h

theorem RunKeeps.sequencerLockLoss (s : State) (h : P s) : P (Machine.sequencerLockLoss s) := by
  unfold Machine.sequencerLockLoss
  split
  · exact k.applyPendingCommit _ _ _ (k.presentBoth _ _ (k.sequencer _ _ (k.leaveEntry s h)))
  · exact h

theorem RunKeeps.sequencerDisable (s : State) (h : P s) : P (Machine.sequencerDisable s) := by
  unfold Machine.sequencerDisable
  cases s.sequencer.state with
  | stopped => exact h
  | free => exact k.sequencer s _ h
  | running | halted | rejoining =>
    exact k.applyPendingCommit _ _ _ (k.presentBoth _ _ (k.sequencer _ _ (k.leaveEntry s h)))

theorem RunKeeps.sequencerEnable (s : State) (h : P s) : P (Machine.sequencerEnable s) := by
  unfold Machine.sequencerEnable
  cases s.sequencer.state with
  | stopped => exact k.sequencer s _ h
  | free | running | halted | rejoining => exact h

theorem RunKeeps.freeGatesWritten (s : State) (h : P s) : P (Machine.freeGatesWritten s) := by
  unfold Machine.freeGatesWritten
  cases s.sequencer.state with
  | stopped | free => exact k.presentBoth _ s h
  | running | halted | rejoining => exact h

theorem RunKeeps.sequencerHalt (s : State) (h : P s) : P (Machine.sequencerHalt s) :=
  k.presentBoth _ _ (k.sequencer _ _ (k.leaveEntry s h))

theorem RunKeeps.enterEntry (i : EntryIndex) (m : Time) (s : State) (h : P s) : P (Machine.enterEntry i m s) :=
  k.counters _ _ (k.sequencer s _ h)

theorem RunKeeps.moveTo (i : EntryIndex) (m : Time) (s : State) (h : P s) : P (Machine.moveTo i m s) :=
  k.presentBoth _ _ (k.enterEntry i m s h)

theorem RunKeeps.endCycle (s : State) (h : P s) : P (Machine.endCycle s) := by
  rw [endCycle_eq]
  split
  · exact k.leaveEntry s h
  · exact k.counters _ _ (k.leaveEntry s h)

theorem RunKeeps.startPulse (s : State) (h : P s) : P (Machine.startPulse s) := by
  unfold Machine.startPulse
  split
  · exact k.walk s _ true h
  · exact h

theorem RunKeeps.startCycle (origin : Time) (ref : Nat) (s : State) (h : P s) : P (Machine.startCycle origin ref s) := by
  have begun : P (cycleBegun origin ref s) := k.sequencer _ _ (k.applyPendingCommit _ _ s h)
  have running : P (cycleRunning origin ref s) := k.counters _ _ (k.sequencer _ _ (k.enterEntry _ _ _ begun))
  exact k.startPulse _ (k.presentBoth _ _ running)

theorem RunKeeps.takeBoundary (origin : Time) (ref : Nat) (s : State) (h : P s) :
    P (Machine.takeBoundary origin ref s) := by
  unfold Machine.takeBoundary
  cases s.sequencer.state with
  | stopped => exact h
  | free | rejoining => exact k.startCycle origin ref s h
  | running => exact k.startCycle origin ref _ (k.endCycle s h)
  | halted => exact k.counters s _ h

theorem RunKeeps.stepInEntry (t : Time) (settle : BitVec 8) (next : EntryIndex) (s : State) (h : P s) :
    P (Machine.stepInEntry t settle next s) := by
  unfold Machine.stepInEntry
  simp only
  split
  · exact k.moveTo next t s h
  · split <;> exact k.sequencer s _ h

theorem RunKeeps.takeStepMark (t : Time) (s : State) (h : P s) : P (Machine.takeStepMark t s) := by
  have stray : P (strayStep s) := k.counters s _ h
  unfold Machine.takeStepMark
  cases s.sequencer.state with
  | stopped | free | halted | rejoining => exact stray
  | running =>
    cases s.currentEntry.ending with
    | timed | tail => exact stray
    | step off settle next =>
      simp only
      split
      · exact stray
      · exact k.stepInEntry t settle next s h

theorem RunKeeps.entryDeadlineTaken (s : State) (h : P s) : P (Machine.entryDeadlineTaken s) := by
  unfold Machine.entryDeadlineTaken
  cases s.currentEntry.ending with
  | timed off next => exact k.moveTo next s.time s h
  | step off settle next =>
    refine k.moveTo next s.time _ ?_
    split
    · exact k.counters s _ h
    · exact h
  | tail => exact k.sequencer s _ h

theorem RunKeeps.settleTaken (s : State) (h : P s) : P (Machine.settleTaken s) := by
  unfold Machine.settleTaken
  split
  · exact k.moveTo _ s.time s h
  · exact k.sequencer s _ h

/-! ### The tracker -/

theorem RunKeeps.setTracker (s : State) (t : Tracker) (ht : s.tracker.counted → t.counted) (h : P s) :
    P (s.setTracker t) := k.tracker s t s.pins.lock ht h

theorem RunKeeps.setLock (s : State) (b : Bool) (h : P s) : P (s.setLock b) := k.tracker s s.tracker b id h

theorem RunKeeps.lockLoss (c : LossCause) (s : State) (h : P s) : P (Machine.lockLoss c s) :=
  k.sequencerLockLoss _ (k.setLock _ false (k.toNoticeKeeps.raiseNotice _ _ _
    (k.counters _ _ (k.setTracker s _ (fun _ => Tracker.cleared_counted _ _) h))))

theorem RunKeeps.firstMark (t : Time) (s : State) (h : P s) : P (Machine.firstMark t s) :=
  k.counters _ _ (k.setTracker s _ id h)

theorem RunKeeps.acquireLock (t : Time) (s : State) (h : P s) : P (Machine.acquireLock t s) :=
  k.takeBoundary t _ _ (k.toNoticeKeeps.raiseNotice _ _ _ (k.setLock _ true (k.setTracker s _ id h)))

theorem RunKeeps.markAcquiring (t : Time) (s : State) (h : P s) : P (Machine.markAcquiring t s) := by
  unfold Machine.markAcquiring
  simp only
  split
  · exact k.counters s _ h
  · have captured : P (countAccepted (s.setTracker
        { s.tracker.capture (Time.since t s.tracker.boundary) with boundary := t })) :=
      k.counters _ _ (k.setTracker s _ (Tracker.capture_counted _) h)
    split
    · exact k.acquireLock t _ captured
    · exact k.setTracker _ _ id captured

theorem RunKeeps.acceptMark (t : Time) (ref : Nat) (s : State) (h : P s) : P (Machine.acceptMark t ref s) := by
  refine k.takeBoundary t _ _ ?_
  have moved : P (countAccepted (s.setTracker { examineSpan t s with
      state := .locked, boundary := t, synthesised := false, missing := 0
      wait := windowWait t ((examineSpan t s).ref.getD ref) s.config.window })) :=
    k.counters _ _ (k.setTracker s _ (examineSpan_counted t s) h)
  split
  · exact k.toNoticeKeeps.raiseNotice _ _ _ moved
  · exact moved

theorem RunKeeps.markInWindow (t : Time) (s : State) (h : P s) : P (Machine.markInWindow t s) := by
  unfold Machine.markInWindow
  split
  · exact h
  · simp only
    split
    · exact k.counters s _ h
    · split
      · exact h
      · exact k.acceptMark t _ s h

theorem RunKeeps.takeCycleMark (t : Time) (s : State) (h : P s) : P (Machine.takeCycleMark t s) := by
  unfold Machine.takeCycleMark
  cases s.tracker.state with
  | off => exact h
  | seeking => exact k.firstMark t s h
  | acquiring => exact k.markAcquiring t s h
  | locked | holdover => exact k.markInWindow t s h

theorem RunKeeps.carryCycle (ref : Nat) (s : State) (h : P s) : P (Machine.carryCycle ref s) := by
  refine k.takeBoundary _ ref _ ?_
  have moved : P (s.setTracker { s.tracker with
      state := .holdover, boundary := Time.plus s.tracker.boundary ref, missing := s.tracker.missing + 1
      synthesised := true, wait := windowWait (Time.plus s.tracker.boundary ref) ref s.config.window }) :=
    k.setTracker s _ id h
  split
  · exact k.toNoticeKeeps.raiseNotice _ _ _ moved
  · exact moved

theorem RunKeeps.windowCloseTaken (ref : Nat) (s : State) (h : P s) : P (Machine.windowCloseTaken ref s) := by
  unfold Machine.windowCloseTaken
  simp only
  split
  · exact k.carryCycle ref _ (k.counters s _ h)
  · exact k.lockLoss .missing _ (k.counters s _ h)

theorem RunKeeps.clearTracker (s : State) (st : TrackerState) (h : P s) : P (s.setTracker (s.tracker.cleared st)) :=
  k.setTracker s _ (fun _ => Tracker.cleared_counted _ _) h

theorem RunKeeps.trackerDisturbed (c : LossCause) (s : State) (h : P s) : P (Machine.trackerDisturbed c s) := by
  unfold Machine.trackerDisturbed
  cases s.tracker.state with
  | off | seeking => exact h
  | acquiring => exact k.clearTracker s _ h
  | locked | holdover => exact k.lockLoss c s h

theorem RunKeeps.trackerEnable (s : State) (h : P s) : P (Machine.trackerEnable s) := by
  unfold Machine.trackerEnable
  cases s.tracker.state with
  | off => exact k.clearTracker s _ h
  | seeking | acquiring | locked | holdover => exact h

theorem RunKeeps.trackerDisable (s : State) (h : P s) : P (Machine.trackerDisable s) := by
  unfold Machine.trackerDisable
  cases s.tracker.state with
  | off => exact h
  | seeking | acquiring => exact k.clearTracker s _ h
  | locked | holdover => exact k.lockLoss .disabled s h

/-! ### Ports, classification and links -/

theorem RunKeeps.deliverMark (kind : MarkKind) (p : Port) (s : State) (h : P s) : P (Machine.deliverMark kind p s) := by
  unfold Machine.deliverMark
  cases kind with
  | noMark => exact h
  | cycle =>
    simp only
    split
    · exact k.takeCycleMark s.time s h
    · exact k.counters s _ h
  | step =>
    simp only
    split
    · exact k.takeStepMark s.time s h
    · exact k.counters s _ h

theorem RunKeeps.selectAction (p : Port) (f : FrameFields) (s : State) (h : P s) : P (Machine.selectAction p f s).2 := by
  unfold Machine.selectAction
  split
  · exact k.classifier s _ h
  · exact h

theorem RunKeeps.classifyOrdinary (p : Port) (bytes : List Byte) (s : State) (h : P s) :
    P (Machine.classifyOrdinary p bytes s) := by
  have marked : P (Machine.deliverMark (Machine.selectAction p (frameFields bytes) s).1.mark p
      (Machine.selectAction p (frameFields bytes) s).2) := k.deliverMark _ p _ (k.selectAction p _ s h)
  unfold Machine.classifyOrdinary
  simp only
  split
  · exact k.toTrafficKeeps.offerForwarded _ _ bytes _ marked
  · exact marked

theorem RunKeeps.pushRequest (slot : Slot) (s : State) (h : P s) : P (Machine.pushRequest slot s) := by
  unfold Machine.pushRequest
  split
  · rename_i room
    have fits : s.agent.fifo.length < 4 := room
    exact k.fifo s _ s.agent.serviced (fun _ => by simpa using fits) h
  · exact k.counters s _ h

theorem RunKeeps.judgeFrame (p : Port) (s : State) (h : P s) : P (Machine.judgeFrame p s) := by
  unfold Machine.judgeFrame Machine.classify
  simp only
  split
  · exact k.counters s _ h
  · split
    · exact k.counters s _ h
    · split
      · exact k.counters s _ h
      · split
        · exact k.pushRequest _ _ (k.counters s _ h)
        · exact k.classifyOrdinary p _ _ (k.counters s _ h)

/-- The reception in progress is judged and the receiver left idle; a receiver in progress is not that of a sound port that is DOWN (R85, R89). -/
theorem RunKeeps.receptionCompleted (p : Port) (frame : List Byte) (receiveError : Bool) (s : State)
    (receiving : (s.port p).receiver.receiving = true) (h : P s) :
    P (releaseReceiver p (Machine.judgeFrame p (stageBytes p frame receiveError s))) := by
  refine k.receiver _ p _ (fun _ _ => rfl) (k.judgeFrame p _ (k.receiver s p _ (fun _ idle => ?_) h))
  rw [idle] at receiving
  cases receiving

theorem RunKeeps.completeTransmission (p : Port) (f : InFlight) (s : State) (flying : (s.sched p).inFlight = some f)
    (h : P s) : P (Machine.completeTransmission p f s) := by
  have freed := k.abort (s.countPort p (fun c => { c with transmitted := Count.up c.transmitted })) p f flying
    (k.counters s _ h)
  unfold Machine.completeTransmission
  refine k.toTrafficKeeps.evaluate p _ ?_
  split
  · exact k.toNoticeKeeps.offerAllNotices _ freed
  · exact freed

theorem RunKeeps.linkUpEvent (p : Port) (s : State) (h : P s) : P (Machine.linkUpEvent p s) :=
  k.toNoticeKeeps.raiseNotice _ _ _ (k.toTrafficKeeps.evaluate p _ (k.linkUp s p h))

theorem RunKeeps.linkDownEvent (p : Port) (s : State) (h : P s) : P (Machine.linkDownEvent p s) := by
  have flushed := k.toFlushKeeps.flushPort p _ (k.linkDown s p h)
  unfold Machine.linkDownEvent
  refine k.toNoticeKeeps.raiseNotice _ _ _ ?_
  split
  · exact k.trackerDisturbed .linkDown _ flushed
  · exact flushed

theorem RunKeeps.sampleLink (p : Port) (s : State) (h : P s) : P (Machine.sampleLink p s) := by
  unfold Machine.sampleLink
  split
  · exact k.linkUpEvent p s h
  · exact h

theorem RunKeeps.trafficAbort (p : Port) (s : State) (h : P s) : P (Machine.trafficAbort p s) := by
  unfold Machine.trafficAbort
  split
  · exact k.toFlushKeeps.abortTransmission p _ (k.counters s _ h)
  · exact h

theorem RunKeeps.trafficReset (s : State) (h : P s) : P (Machine.trafficReset s) := by
  have flushed := k.toFlushKeeps.flushPort .b _ (k.toFlushKeeps.flushPort .a _ (k.trafficAbort .b _ (k.trafficAbort .a s h)))
  unfold Machine.trafficReset
  simp only
  split
  · exact k.trackerDisturbed .trafficReset _ flushed
  · exact flushed

end

end Sys2Proof.Machine
end

section
/-! PROOF. Requests, events and steps as sequences of the primitive moves: a property that the moves keep is kept by every step. -/

namespace Sys2Proof.Machine

/-! ### The items and their rows -/

/-- The rows of the writes of an item (section 12.4), but for the refused value of an enable (log entry 8). -/
def ConfigId.rows : ConfigId → List Instr
  | .stationAddress => [.writeStationAddress]
  | .managementType => [.writeManagementType]
  | .trackerEnable => [.trackerEnableOn, .trackerEnableOff]
  | .cadencePort | .depth | .window | .holdover | .spanMin | .spanMax => [.writeTrackerItem]
  | .sequencerEnable => [.sequencerEnableOn, .sequencerEnableOff]
  | .freeGates _ => [.writeFreeGateSet]
  | .syncOutEnable => [.writeSyncOutEnable]
  | .defaultAction => [.writeDefaultAction]
  | .quota _ _ => [.writeQuota]
  | .noticeEnable => [.writeNoticeEnableSet]

/-- The row of a write of a known item is one of the item's rows, or that of a refused value. -/
theorem writeConfigRow_mem_rows {id : Byte} {item : ConfigId} (value : List Byte) (known : configIdOf id.toNat = some item) :
    writeConfigRow (id :: value) ∈ .writeConfig :: item.rows := by
  unfold writeConfigRow
  cases item <;> simp only [known] <;> try exact List.mem_cons_of_mem _ List.mem_cons_self
  all_goals
    repeat' apply mem_of_both
    all_goals decide

/-- The arguments of a request of a row of WRITE_CONFIG other than that of the refused writes name an item of the row. -/
theorem item_of_slotRow {slot : Slot} {row : Instr} (h : slotRow slot = row) (other : row ∉ .writeConfig :: otherRows) :
    ∃ id value item, (requestOf slot).args = id :: value ∧ configIdOf id.toNat = some item ∧ row ∈ item.rows := by
  subst h
  obtain ⟨plain, others⟩ := List.ne_and_not_mem_of_not_mem_cons other
  have e := writeConfigRow_of_slotRow others
  rw [← e] at plain ⊢
  cases hargs : (requestOf slot).args with
  | nil => exact absurd (by rw [hargs]; rfl) plain
  | cons id value =>
    cases known : configIdOf id.toNat with
    | none => exact absurd (by rw [hargs]; simp [writeConfigRow, known]) plain
    | some item =>
      rw [hargs] at plain
      exact ⟨id, value, item, rfl, known, (List.mem_cons.mp (writeConfigRow_mem_rows value known)).resolve_left plain⟩

/-! ### Requests -/

/-- Executing a request of the row keeps the property. -/
def RequestKeeps (P : State → Prop) (row : Instr) (run : Request → State → Verdict) : Prop :=
  ∀ slot, slotRow slot = row → ∀ s, P s → P (run (requestOf slot) s).state

/-- The property holds of what executing a request gives, and a request that is to be recorded leaves the session open. -/
def Verdict.keeps (P : State → Prop) : Verdict → Prop
  | .answer t _ => P t ∧ t.agent.session.isOpen = true
  | .closing t _ => P t ∧ t.agent.session.isOpen = true
  | .silent t => P t

/-- Executing an owner's request of the row keeps the property. -/
def OwnedKeeps (P : State → Prop) (row : Instr) (run : Request → State → Verdict) : Prop :=
  ∀ slot, slotRow slot = row → ∀ s, s.agent.session.isOpen = true → P s → (run (requestOf slot) s).keeps P

/-- Whatever the next state is, the property holds of it. -/
def keepsIn (P : State → Prop) (o : Host.Outcome State Fault Refusal) : Prop := ∀ t, o = .next t → P t

theorem keepsIn_next {P : State → Prop} {t : State} (h : P t) : keepsIn P (.next t) := by
  rintro _ ⟨⟩
  exact h

theorem answered {P : State → Prop} {t : State} {a : Answer} (h : P t) : P (Verdict.answer t a).state := h

theorem Verdict.keeps_of_state {P : State → Prop} {v : Verdict} (h : P v.state ∧ v.state.agent.session.isOpen = true) :
    v.keeps P := by
  cases v with
  | answer t a | closing t a => exact h
  | silent t => exact h.1

section
variable {P : State → Prop} (k : RunKeeps P)
include k

/-- What an event or a request does keeps the property with an open session, so it may be an owner's. -/
theorem RunKeeps.owned {row : Instr} {run : Request → State → Verdict}
    (h : ∀ {Q : State → Prop}, RunKeeps Q → RequestKeeps Q row run) : OwnedKeeps P row run :=
  fun slot hr s o hs => Verdict.keeps_of_state (h k.opened slot hr s ⟨hs, o⟩)

end

section
variable {P : State → Prop} (k : AgentKeeps P)
include k

theorem AgentKeeps.takeSlot (slot : Slot) (rest : List Slot) (s : State) (hf : s.agent.fifo = slot :: rest) (h : P s) :
    P (Machine.takeSlot rest s) :=
  k.fifo s rest true (fun l => by rw [hf, List.length_cons] at l; omega) h

theorem AgentKeeps.restartLease (s : State) (o : s.agent.session.isOpen = true) (h : P s) : P (Machine.restartLease s) :=
  k.session s _ o rfl id h

theorem AgentKeeps.takeRequest (row : Instr) (handle : Slot → State → State) (s : State)
    (hh : ∀ slot, slotRow slot = row → ∀ s, P s → P (handle slot s)) (h : P s) : P (Machine.takeRequest row handle s) := by
  unfold Machine.takeRequest
  split
  · split
    · exact h
    · rename_i slot rest hf
      split
      · rename_i hr
        exact hh slot hr _ (k.takeSlot slot rest s hf h)
      · exact h
  · exact h

end

section
variable {P : State → Prop} (k : ServeKeeps P)
include k

theorem ServeKeeps.settleVerdict (r : Request) (v : Verdict) (h : P v.state) : P (Machine.settleVerdict r v) := by
  cases v with
  | answer t a => exact k.toTrafficKeeps.respond r a t h
  | closing t a => exact k.toTrafficKeeps.respond r a _ (k.ended t h)
  | silent t => exact h

theorem ServeKeeps.serveRequest {judge : Request → State → Verdict} (r : Request) (s : State)
    (hj : P (judge r s).state) (h : P s) : P (Machine.serveRequest judge r s) := by
  unfold Machine.serveRequest
  split
  · exact k.toTrafficKeeps.respond r _ s h
  · exact k.settleVerdict r _ hj

/-- The owner check and the sequence check leave the property to the request (R135, R136). -/
theorem ServeKeeps.judgeOwner {row : Instr} {run : Request → State → Verdict} (hr : OwnedKeeps P row run) :
    RequestKeeps P row (Machine.judgeOwner run) := by
  intro slot hrow s h
  unfold Machine.judgeOwner
  simp only
  split
  · rename_i owner
    have o : s.agent.session.isOpen = true := by
      unfold ownerCheck at owner
      simp only [Bool.and_eq_true] at owner
      exact owner.1.1
    have leased := k.restartLease s o h
    have ran := hr slot hrow (restartLease s) o leased
    split
    · split <;> rename_i e <;> rw [e] at ran
      · exact k.record _ _ _ ran.2 ran.1
      · exact k.ended _ (k.record _ _ _ ran.2 ran.1)
      · exact ran
    · split <;> exact leased
  · exact h

theorem ServeKeeps.takeOpen {row : Instr} {run : Request → State → Verdict} (hr : RequestKeeps P row run) (s : State)
    (h : P s) : keepsIn P (Machine.takeOpen row run s) :=
  keepsIn_next (k.takeRequest row _ s (fun slot e t ht => k.serveRequest _ t (hr slot e t ht) ht) h)

theorem ServeKeeps.takeOwned {row : Instr} {run : Request → State → Verdict} (hr : OwnedKeeps P row run) (s : State)
    (h : P s) : keepsIn P (Machine.takeOwned row run s) :=
  keepsIn_next (k.takeRequest row _ s (fun slot e t ht => k.serveRequest _ t (k.judgeOwner hr slot e t ht) ht) h)

end

section
variable {P : State → Prop} (k : MoveKeeps P)
include k

/-- A part that leaves reset samples its links (R88, R95). -/
theorem MoveKeeps.released (straps : Straps) (phy : Pair Link) (n : Nat) (is : List Instr) :
    P (sampleLinks (State.powerOn straps true phy n is)) :=
  k.sampleLink .b _ (k.sampleLink .a _ (k.powerOn straps true phy n is))

end

/-! ### The judgements of arguments -/

section
variable {P : State → Prop} {row : Instr} {run : Request → State → Verdict}

theorem RequestKeeps.withArguments (n : Nat) (h : RequestKeeps P row run) :
    RequestKeeps P row (Machine.withArguments n run) := by
  intro slot hr s hs
  unfold Machine.withArguments
  split
  · exact h slot hr s hs
  · exact hs

theorem RequestKeeps.withoutArguments (h : RequestKeeps P row run) : RequestKeeps P row (Machine.withoutArguments run) := by
  rw [withoutArguments_eq]
  exact h.withArguments 0

theorem RequestKeeps.writeConfigWith {write : ConfigId → List Byte → State → Verdict} (other : row ∉ .writeConfig :: otherRows)
    (h : ∀ item value, row ∈ item.rows → value.length = item.size → ∀ s, P s → P (write item value s).state) :
    RequestKeeps P row (Machine.writeConfigWith write) := by
  intro slot hr s hs
  obtain ⟨id, value, item, args, known, mem⟩ := item_of_slotRow hr other
  unfold Machine.writeConfigWith
  simp only [args, known]
  split
  · rename_i size
    exact h item value mem size s hs
  · exact hs

theorem RequestKeeps.writeEntries {α : Type} (size n : Nat) (read : List Byte → Except Nat α)
    {write : List α → Nat → State → State}
    (h : ∀ count bytes es first s, readRecords read n count 0 bytes = .ok es → P s → P (write es first s)) :
    RequestKeeps P row (Machine.writeEntries size n read write) := by
  intro slot hr s hs
  unfold Machine.writeEntries
  simp only
  split
  · exact hs
  · split
    · split
      · split
        · exact hs
        · rename_i es read
          exact h _ _ es _ s read hs
      · exact hs
    · exact hs

/-- A request that only reads keeps every property. -/
theorem RequestKeeps.ofReads (h : ∀ r s, (run r s).state = s) : RequestKeeps P row run :=
  fun slot _ s hs => by rw [h]; exact hs

end

theorem runReadConfig_state (r : Request) (s : State) : (runReadConfig r s).state = s := by
  unfold runReadConfig
  simp only
  split
  · rfl
  · split <;> rfl

theorem runReadMatch_state (r : Request) (s : State) : (runReadMatch r s).state = s := by
  unfold runReadMatch
  simp only
  split <;> rfl

theorem runReadProgram_state (r : Request) (s : State) : (runReadProgram r s).state = s := by
  unfold runReadProgram
  simp only
  split
  · rfl
  · split
    · split <;> rfl
    · rfl

theorem runReadCounters_state (r : Request) (s : State) : (runReadCounters r s).state = s := by
  unfold runReadCounters
  simp only
  split <;> rfl

/-! ### The items written -/

theorem ConfigItems.wellFormed_iff (c : ConfigItems) : c.wellFormed = true ↔
    individualAddress c.stationAddress = true ∧ (0x0600 ≤ c.managementType.toNat ∧ c.managementType ≠ 0x8100)
      ∧ c.depth ∈ [1, 2, 4, 8, 16] ∧ (1 ≤ c.window ∧ c.window ≤ 128) ∧ c.holdover ≤ 15
      ∧ (1000 ≤ c.spanMin ∧ c.spanMin ≤ c.spanMax ∧ c.spanMax ≤ 125000000)
      ∧ quotasInRange c.quotas.a = true ∧ quotasInRange c.quotas.b = true := by
  simp only [ConfigItems.wellFormed, Bool.and_eq_true, decide_eq_true_eq, and_assoc]

theorem quotasInRange_set {v : Vector Nat 9} {n : Nat} (q : QueueName) (hn : n ≤ 512) (h : quotasInRange v = true) :
    quotasInRange (v.set q n) = true := by
  unfold quotasInRange at *
  simp only [List.all_eq_true, decide_eq_true_eq] at *
  intro x hx
  rw [Vector.mem_toList_iff] at hx
  rcases Vector.mem_or_eq_of_mem_set hx with hx | rfl
  · exact h x (Vector.mem_toList_iff.mpr hx)
  · exact hn

/-- The address of six bytes is individual when the least significant bit of the first is zero (R143). -/
theorem individualAddress_ofNat {b : Byte} {l : List Byte} (hl : l.length = 5) (hb : b.toNat % 2 = 0) :
    individualAddress (BitVec.ofNat 48 (numberOf (b :: l))) = true := by
  have low : numberOf l < 2 ^ 40 := by simpa [hl] using numberOf_lt l
  have bit : (numberOf (b :: l)).testBit 40 = false := by
    rw [numberOf_cons, hl, show (256 : Nat) ^ 5 = 2 ^ 40 from rfl, Nat.testBit_eq_decide_div_mod_eq,
      show b.toNat * 2 ^ 40 + numberOf l = numberOf l + 2 ^ 40 * b.toNat by ring,
      Nat.add_mul_div_left _ _ (by decide), Nat.div_eq_of_lt low, Nat.zero_add, hb]
    rfl
  unfold individualAddress
  rw [BitVec.getLsbD_ofNat, bit]
  rfl

/-- A tracker item is stored only within its range (R18). -/
theorem trackerItemWritten_wellFormed {c c' : ConfigItems} {item : ConfigId} {value : List Byte}
    (h : trackerItemWritten c item value = some c') (wf : c.wellFormed = true) : c'.wellFormed = true := by
  rw [ConfigItems.wellFormed_iff] at wf ⊢
  obtain ⟨address, type, depth, window, holdover, spans, quotas⟩ := wf
  cases item <;> simp only [trackerItemWritten, Option.map_eq_some_iff, Option.ite_none_right_eq_some,
    Option.some.injEq, reduceCtorEq] at h
  · obtain ⟨p, _, rfl⟩ := h
    exact ⟨address, type, depth, window, holdover, spans, quotas⟩
  · obtain ⟨range, rfl⟩ := h
    exact ⟨address, type, range, window, holdover, spans, quotas⟩
  · obtain ⟨range, rfl⟩ := h
    exact ⟨address, type, depth, range, holdover, spans, quotas⟩
  · obtain ⟨range, rfl⟩ := h
    exact ⟨address, type, depth, window, range, spans, quotas⟩
  · obtain ⟨range, rfl⟩ := h
    exact ⟨address, type, depth, window, holdover, ⟨range.1, range.2, spans.2.2⟩, quotas⟩
  · obtain ⟨range, rfl⟩ := h
    exact ⟨address, type, depth, window, holdover, ⟨spans.1, range.1, range.2⟩, quotas⟩

/-! ### Records of program entries -/

/-- The end of an entry that is read has an end offset in its range, if it has one (R26, R32). -/
theorem readEntryEnd_legal {b : List Byte} {kind : Nat} {e : EntryEnd} (h : readEntryEnd b kind = .ok e) (g : Pair GateSet)
    (guarded : Bool) : Entry.wellFormed ⟨g, guarded, e⟩ = true := by
  unfold readEntryEnd at h
  cases offset : flagOf (fieldAt b 6 1) with
  | none => simp [offset] at h
  | some hasOffset =>
    simp only [offset] at h
    split at h
    · cases h
    · rename_i hasKind
      split at h
      · cases h
      · rename_i range
        have legal : kind ≠ 2 → 1 ≤ fieldAt b 7 2 ∧ fieldAt b 7 2 ≤ 1023 := fun hk => by
          simp only [ne_eq, hk, not_false_eq_true, decide_true, not_not] at hasKind
          simpa [hasKind] using range
        split at h
        · cases h
        · split at h
          · cases h
          · split at h
            · cases h
            · split at h
              · cases h
              · split at h
                · cases h
                · split at h
                  · rename_i hk
                    cases h
                    exact decide_eq_true (legal (by omega))
                  · split at h
                    · rename_i hk
                      cases h
                      exact decide_eq_true (legal (by omega))
                    · cases h
                      rfl

/-- Whatever is read is legal (R27, R32). -/
theorem readEntryRecord_legal {b : List Byte} {e : Entry} (h : readEntryRecord b = .ok e) : e.wellFormed = true := by
  unfold readEntryRecord at h
  split at h
  · cases h
  · split at h
    · cases h
    · split at h
      · cases h
      · split at h
        · cases h
        · split at h
          · cases h
          · rename_i hend
            cases h
            exact readEntryEnd_legal hend _ _

/-- Records that are read in sequence are each one that is read. -/
theorem readRecords_all {α : Type} {read : List Byte → Except Nat α} {size : Nat} {legal : α → Prop}
    (hl : ∀ b e, read b = .ok e → legal e) : ∀ (n position : Nat) (bytes : List Byte) (es : List α),
      readRecords read size n position bytes = .ok es → ∀ e ∈ es, legal e := by
  intro n
  induction n with
  | zero =>
    intro position bytes es h
    cases h
    exact fun _ he => (nomatch he)
  | succ n ih =>
    intro position bytes es h
    unfold readRecords at h
    split at h
    · cases h
    · rename_i e first
      split at h
      · cases h
      · rename_i rest others
        cases h
        exact List.forall_mem_cons.mpr ⟨hl _ e first, ih _ _ rest others⟩

/-- A bank into which legal entries are written stays legal (R27, R33). -/
theorem writeBankEntries_legal (es : List Entry) : ∀ (first : Nat) (b : Bank), (∀ e ∈ es, e.wellFormed = true) →
    b.entriesLegal = true → (writeBankEntries es first b).entriesLegal = true := by
  induction es with
  | nil => exact fun _ _ _ hb => hb
  | cons e es ih =>
    intro first b he hb
    obtain ⟨legal, others⟩ := List.forall_mem_cons.mp he
    refine ih (first + 1) _ others ?_
    unfold Bank.entriesLegal at *
    simp only [List.all_eq_true] at *
    intro x hx
    rw [Vector.mem_toList_iff] at hx
    rcases Vector.mem_or_eq_of_mem_set hx with hx | rfl
    · exact hb x (Vector.mem_toList_iff.mpr hx)
    · exact legal

/-- The staged bank is written with no commit pending: the active bank stands (R33, R35). -/
theorem ProgramStore.sound_setStaged {ps : ProgramStore} {b : Bank} (free : ps.commitPending = false)
    (legal : ps.stagedBank.entriesLegal = true → b.entriesLegal = true) (h : ps.sound) : (ps.setStaged b).sound := by
  obtain ⟨active, -, legal0, legal1⟩ := h
  refine ⟨?_, fun pending => ?_, ?_⟩
  · rwa [ProgramStore.activeBank_setStaged]
  · rw [ProgramStore.commitPending_setStaged, free] at pending
    cases pending
  · unfold ProgramStore.setStaged
    cases ha : ps.active <;> simp only [ProgramStore.stagedBank, ha] at legal
    · exact ⟨legal0, legal legal1⟩
    · exact ⟨legal legal0, legal1⟩

/-- A legal lease length other than 0 is in range (R150, R152). -/
theorem leaseLegal_range {ms : Nat} (legal : leaseLegal ms = true) (h : ms ≠ 0) : 1000 ≤ ms ∧ ms ≤ 300000 := by
  simpa [leaseLegal, h] using legal

/-! ### The rows of owner-only requests -/

section
variable {P : State → Prop}

/-- The writes that are always refused (R142, log entry 8). -/
theorem RequestKeeps.writeConfig : RequestKeeps P .writeConfig (Machine.writeConfigWith fun _ _ s => badValue s) := by
  refine .ofReads fun r s => ?_
  unfold Machine.writeConfigWith
  split
  · rfl
  · split
    · rfl
    · split <;> rfl

/-- While a commit is pending a write of the staged bank is refused (R35). -/
theorem RequestKeeps.unlessLocked {row : Instr} {run : Request → State → Verdict}
    (h : RequestKeeps (fun s => P s ∧ s.programs.commitPending = false) row run) :
    RequestKeeps P row (Machine.unlessLocked run) := by
  intro slot hr s hs
  unfold Machine.unlessLocked
  split
  · exact hs
  · rename_i free
    exact (h slot hr s ⟨hs, by simpa using free⟩).1

end

section
variable {P : State → Prop} (k : RunKeeps P)
include k

theorem RunKeeps.setConfig (s : State) (c : ConfigItems) (hc : s.config.wellFormed = true → c.wellFormed = true) (h : P s) :
    P (s.setConfig c) := k.config s c hc h

/-- What an event or a request does to the config items, and what follows from it. -/
theorem RunKeeps.written {f : State → State} (s : State) (c : ConfigItems)
    (hc : s.config.wellFormed = true → c.wellFormed = true) (hf : ∀ t, P t → P (f t)) (h : P s) :
    P (Machine.written (f (s.setConfig c))).state := hf _ (k.setConfig s c hc h)

theorem RunKeeps.trackerEnableOn : RequestKeeps P .trackerEnableOn (writeConfigWith fun _ _ s => runTrackerEnableOn s) :=
  .writeConfigWith (by decide) fun _ _ _ _ s h => k.written s _ id k.trackerEnable h

theorem RunKeeps.trackerEnableOff : RequestKeeps P .trackerEnableOff (writeConfigWith fun _ _ s => runTrackerEnableOff s) :=
  .writeConfigWith (by decide) fun _ _ _ _ s h => k.written s _ id k.trackerDisable h

theorem RunKeeps.sequencerEnableOn :
    RequestKeeps P .sequencerEnableOn (writeConfigWith fun _ _ s => runSequencerEnableOn s) :=
  .writeConfigWith (by decide) fun _ _ _ _ s h => k.written s _ id k.sequencerEnable h

theorem RunKeeps.sequencerEnableOff :
    RequestKeeps P .sequencerEnableOff (writeConfigWith fun _ _ s => runSequencerEnableOff s) :=
  .writeConfigWith (by decide) fun _ _ _ _ s h => k.written s _ id k.sequencerDisable h

theorem RunKeeps.writeTrackerItem : RequestKeeps P .writeTrackerItem (writeConfigWith runWriteTrackerItem) := by
  refine .writeConfigWith (by decide) fun item value _ _ s h => ?_
  unfold runWriteTrackerItem
  split
  · exact h
  · split
    · rename_i c hc
      exact k.setConfig s c (trackerItemWritten_wellFormed hc) h
    · exact h

theorem RunKeeps.writeFreeGateSet : RequestKeeps P .writeFreeGateSet (writeConfigWith runWriteFreeGateSet) := by
  refine .writeConfigWith (by decide) fun item value _ _ s h => ?_
  unfold runWriteFreeGateSet
  split
  · exact k.written s _ id k.freeGatesWritten h
  · exact h

theorem RunKeeps.writeSyncOutEnable :
    RequestKeeps P .writeSyncOutEnable (writeConfigWith fun _ value s => runWriteSyncOutEnable value s) := by
  refine .writeConfigWith (by decide) fun item value _ _ s h => ?_
  unfold runWriteSyncOutEnable
  split
  · exact k.setConfig s _ id h
  · exact h

theorem RunKeeps.writeStationAddress :
    RequestKeeps P .writeStationAddress (writeConfigWith fun _ value s => runWriteStationAddress value s) := by
  refine .writeConfigWith (by decide) fun item value mem size s h => ?_
  cases item <;> simp only [ConfigId.rows, List.mem_cons, List.not_mem_nil, reduceCtorEq, or_false] at mem
  cases value with
  | nil => cases size
  | cons b l =>
    unfold runWriteStationAddress
    split
    · exact h
    · rename_i group
      rw [fieldAt_first] at group
      refine k.setConfig s _ (fun wf => ?_) h
      rw [ConfigItems.wellFormed_iff] at wf ⊢
      exact ⟨individualAddress_ofNat (by simpa [ConfigId.size] using size) (by omega), wf.2⟩

theorem RunKeeps.writeManagementType :
    RequestKeeps P .writeManagementType (writeConfigWith fun _ value s => runWriteManagementType value s) := by
  refine .writeConfigWith (by decide) fun item value mem size s h => ?_
  cases item <;> simp only [ConfigId.rows, List.mem_cons, List.not_mem_nil, reduceCtorEq, or_false] at mem
  unfold runWriteManagementType
  split
  · exact h
  · rename_i legal
    refine k.setConfig s _ (fun wf => ?_) h
    have bound : numberOf value < 65536 := by simpa [size, ConfigId.size] using numberOf_lt value
    have type : (BitVec.ofNat 16 (numberOf value)).toNat = numberOf value := by simpa using bound
    rw [ConfigItems.wellFormed_iff] at wf ⊢
    refine ⟨wf.1, ⟨by rw [type]; omega, fun e => ?_⟩, wf.2.2⟩
    have value_eq : numberOf value = 0x8100 := type.symm.trans (congrArg BitVec.toNat e)
    exact legal (.inr value_eq)

theorem RunKeeps.writeDefaultAction :
    RequestKeeps P .writeDefaultAction (writeConfigWith fun _ value s => runWriteDefaultAction value s) := by
  refine .writeConfigWith (by decide) fun item value _ _ s h => ?_
  unfold runWriteDefaultAction
  split
  · exact k.setConfig s _ id h
  · exact h

theorem RunKeeps.writeQuota : RequestKeeps P .writeQuota (writeConfigWith runWriteQuota) := by
  refine .writeConfigWith (by decide) fun item value _ _ s h => ?_
  unfold runWriteQuota
  split
  · rename_i p q _ _
    split
    · rename_i bound
      refine k.setConfig s _ (fun wf => ?_) h
      rw [ConfigItems.wellFormed_iff] at wf ⊢
      obtain ⟨address, type, depth, window, holdover, spans, a, b⟩ := wf
      match p with
      | .a => exact ⟨address, type, depth, window, holdover, spans, quotasInRange_set q bound a, b⟩
      | .b => exact ⟨address, type, depth, window, holdover, spans, a, quotasInRange_set q bound b⟩
    · exact h
  · exact h

theorem RunKeeps.writeNoticeEnableSet :
    RequestKeeps P .writeNoticeEnableSet (writeConfigWith fun _ value s => runWriteNoticeEnableSet value s) := by
  refine .writeConfigWith (by decide) fun item value _ _ s h => ?_
  unfold runWriteNoticeEnableSet
  split
  · exact k.setConfig s _ id h
  · exact h

theorem RunKeeps.writeMatch : RequestKeeps P .writeMatch runWriteMatch :=
  .writeEntries _ _ _ fun _ _ _ _ s _ h => k.classifier s _ h

theorem RunKeeps.writeProgram : RequestKeeps P .writeProgram (unlessLocked runWriteProgram) := by
  refine .unlessLocked (.writeEntries _ _ _ fun count bytes es first s read h => ⟨?_, ?_⟩)
  · refine k.programs s _ (ProgramStore.sound_setStaged h.2 (writeBankEntries_legal es first _ ?_)) h.1
    exact readRecords_all (fun _ _ => readEntryRecord_legal) _ _ _ es read
  · exact (ProgramStore.commitPending_setStaged _ _).trans h.2

theorem RunKeeps.writeProgramHeader :
    RequestKeeps P .writeProgramHeader (unlessLocked (withArguments 5 runWriteProgramHeader)) := by
  refine .unlessLocked (.withArguments 5 fun slot _ s h => ⟨?_, ?_⟩)
  · exact k.programs s _ (ProgramStore.sound_setStaged h.2 id) h.1
  · exact (ProgramStore.commitPending_setStaged _ _).trans h.2

theorem RunKeeps.commit : RequestKeeps P .commit (withoutArguments runCommit) := by
  refine .withoutArguments fun slot _ s h => ?_
  unfold runCommit commitBank
  simp only
  split
  · exact h
  · split
    · exact h
    · rename_i valid
      have staged : s.programs.stagedBank.wellFormed = true := by rw [Bank.wellFormed_iff_validate, valid]
      split
      · exact k.programs s _ (fun sound => ⟨sound.1, fun _ => staged, sound.2.2⟩) h
      · exact k.swapBanks .immediate _ s (fun _ => staged) h

theorem RunKeeps.cancelCommit : RequestKeeps P .cancelCommit (withoutArguments runCancelCommit) := by
  refine .withoutArguments fun slot _ s h => ?_
  unfold runCancelCommit
  split
  · exact k.toNoticeKeeps.raiseNotice _ _ _
      (k.programs s _ (fun sound => ⟨sound.1, fun pending => (nomatch pending), sound.2.2⟩) h)
  · exact h

theorem RunKeeps.halt : RequestKeeps P .halt (withoutArguments runHalt) := by
  refine .withoutArguments fun slot _ s h => ?_
  unfold runHalt
  split
  · exact k.sequencerHalt s h
  · exact h

theorem RunKeeps.resume : RequestKeeps P .resume (withoutArguments runResume) := by
  refine .withoutArguments fun slot _ s h => ?_
  unfold runResume
  split
  · exact k.sequencer s _ h
  · exact h

theorem RunKeeps.readCountersClear : RequestKeeps P .readCountersClear (withArguments 1 runReadCountersClear) := by
  refine .withArguments 1 fun slot _ s h => ?_
  unfold runReadCountersClear
  simp only
  split
  · exact k.counters s _ h
  · exact h

theorem RunKeeps.resetTraffic : RequestKeeps P .resetTraffic (withArguments 1 runResetTraffic) := by
  refine .withArguments 1 fun slot _ s h => ?_
  unfold runResetTraffic
  split
  · exact answered (k.trafficReset s h)
  · exact h

/-! ### Sessions -/

theorem RunKeeps.openSession : RequestKeeps P .openSession (withArguments 4 runOpenSession) := by
  refine .withArguments 4 fun slot _ s h => ?_
  unfold runOpenSession
  simp only
  split
  · exact h
  · split
    · exact h
    · rename_i legal
      split
      · exact h
      · refine k.session s _ rfl rfl (fun _ => ?_) h
        simp only [Session.leaseInRange, State.setSession]
        split
        · decide
        · rename_i ms
          exact decide_eq_true (leaseLegal_range (by simpa using legal) ms)

/-- A RENEW comes from the owner of an open session (R135, R154). -/
theorem RunKeeps.renew : OwnedKeeps P .renew (withArguments 4 runRenew) := by
  refine fun slot _ s o h => Verdict.keeps_of_state ?_
  unfold withArguments runRenew
  simp only
  split
  · split
    · exact ⟨h, o⟩
    · rename_i legal
      refine k.opened.toNoticeKeeps.offerAllNotices _ (k.opened.session s _ o rfl (fun range => ?_) ⟨h, o⟩)
      simp only [Session.leaseInRange, State.setSession]
      split
      · exact range
      · rename_i ms
        exact decide_eq_true (leaseLegal_range (by simpa using legal) ms)
  · exact ⟨h, o⟩

end

/-! ### Commands -/

section
variable {P : State → Prop} (k : MoveKeeps P)
include k

theorem MoveKeeps.resetFull : OwnedKeeps P .resetFull runResetFull :=
  fun _ _ _ _ _ => k.released _ _ _ _

omit k in
theorem keepsIn_outsideReset {s : State} {f : State → State} (h : P s) (hf : P (f s)) : keepsIn P (.next (outsideReset s f)) := by
  refine keepsIn_next ?_
  unfold outsideReset
  split
  · exact h
  · exact hf

theorem MoveKeeps.resetNRelease (straps : Straps) (s : State) (h : P s) : keepsIn P (execResetNRelease straps s) := by
  refine keepsIn_next ?_
  split
  · exact k.released straps _ _ _
  · exact h

theorem MoveKeeps.linkUpTaken (p : Port) (s : State) (h : P s) : keepsIn P (execLinkUp p s) := by
  have indicated : P (s.setPhy p .up) := k.phy s _ h
  refine keepsIn_outsideReset indicated ?_
  split
  · exact indicated
  · exact k.linkUpEvent p _ indicated

theorem MoveKeeps.linkDownTaken (p : Port) (s : State) (h : P s) : keepsIn P (execLinkDown p s) := by
  have indicated : P (s.setPhy p .down) := k.phy s _ h
  refine keepsIn_outsideReset indicated ?_
  split
  · exact indicated
  · exact k.linkDownEvent p _ indicated

theorem MoveKeeps.receptionStart (p : Port) (s : State) (h : P s) : keepsIn P (execReceptionStart p s) := by
  refine keepsIn_outsideReset h ?_
  split
  · rename_i up
    exact k.receiver s p _ (fun down => by rw [up.1] at down; cases down) h
  · exact h

theorem MoveKeeps.receptionCompletion (p : Port) (frame : List Byte) (receiveError : Bool) (s : State) (h : P s) :
    keepsIn P (execReceptionCompletion p frame receiveError s) := by
  refine keepsIn_outsideReset h ?_
  split
  · rename_i receiving
    exact k.receptionCompleted p frame receiveError s receiving h
  · exact h

theorem MoveKeeps.transmissionCompletion (p : Port) (s : State) (h : P s) : keepsIn P (execTransmissionCompletion p s) := by
  refine keepsIn_outsideReset h ?_
  split
  · rename_i f flying
    split
    · exact k.completeTransmission p f s flying h
    · exact h
  · exact h

theorem MoveKeeps.acquireTimeout (s : State) (h : P s) : keepsIn P (execAcquireTimeout s) := by
  refine keepsIn_outsideReset h ?_
  split
  · exact k.clearTracker s _ h
  · exact h

theorem MoveKeeps.windowClose (s : State) (h : P s) : keepsIn P (execWindowClose s) := by
  refine keepsIn_outsideReset h ?_
  split
  · split
    · exact k.windowCloseTaken _ s h
    · exact h
  · exact h

theorem MoveKeeps.entryDeadline (s : State) (h : P s) : keepsIn P (execEntryDeadline s) := by
  refine keepsIn_outsideReset h ?_
  split
  · exact k.entryDeadlineTaken s h
  · exact h

theorem MoveKeeps.settleDue (s : State) (h : P s) : keepsIn P (execSettleDue s) := by
  refine keepsIn_outsideReset h ?_
  split
  · exact k.settleTaken s h
  · exact h

theorem MoveKeeps.syncOutPulseEnd (s : State) (h : P s) : keepsIn P (execSyncOutPulseEnd s) := by
  refine keepsIn_outsideReset h ?_
  split
  · exact k.walk s _ false h
  · exact h

theorem MoveKeeps.leaseExpiry (s : State) (h : P s) : keepsIn P (execLeaseExpiry s) := by
  refine keepsIn_outsideReset h ?_
  split
  · exact k.ended s h
  · exact h

/-- Every command keeps a property that the primitive moves keep. -/
theorem MoveKeeps.exec (i : Instr) (s : State) (h : P s) : keepsIn P (Machine.exec i s) := by
  have reads {row : Instr} {run : Request → State → Verdict} (hr : ∀ r s, (run r s).state = s) : RequestKeeps P row run :=
    .ofReads hr
  cases i with
  | resetNAssert => exact keepsIn_next (k.powerOn _ _ _ _ _)
  | resetNRelease straps => exact k.resetNRelease straps s h
  | linkUp p => exact k.linkUpTaken p s h
  | linkDown p => exact k.linkDownTaken p s h
  | receptionStart p => exact k.receptionStart p s h
  | receptionCompletion p frame receiveError => exact k.receptionCompletion p frame receiveError s h
  | transmissionCompletion p => exact k.transmissionCompletion p s h
  | acquireTimeout => exact k.acquireTimeout s h
  | windowClose => exact k.windowClose s h
  | entryDeadline => exact k.entryDeadline s h
  | settleDue => exact k.settleDue s h
  | syncOutPulseEnd => exact k.syncOutPulseEnd s h
  | leaseExpiry => exact k.leaseExpiry s h
  | shortFrameDropped => exact keepsIn_next (k.toAgentKeeps.takeRequest _ _ s (fun _ _ t => k.counters t _) h)
  | badCode => exact k.toServeKeeps.takeOpen (reads fun _ _ => rfl) s h
  | identify => exact k.toServeKeeps.takeOpen (reads fun _ _ => rfl).withoutArguments s h
  | readStatus => exact k.toServeKeeps.takeOpen (reads fun _ _ => rfl).withoutArguments s h
  | readConfig => exact k.toServeKeeps.takeOpen ((reads runReadConfig_state).withArguments 1) s h
  | readMatch => exact k.toServeKeeps.takeOpen ((reads runReadMatch_state).withArguments 2) s h
  | readProgram => exact k.toServeKeeps.takeOpen ((reads runReadProgram_state).withArguments 3) s h
  | readCounters => exact k.toServeKeeps.takeOpen ((reads runReadCounters_state).withArguments 1) s h
  | openSession => exact k.toServeKeeps.takeOpen k.openSession s h
  | writeConfig => exact k.toServeKeeps.takeOwned (k.owned fun _ => .writeConfig) s h
  | trackerEnableOn => exact k.toServeKeeps.takeOwned (k.owned fun q => q.trackerEnableOn) s h
  | trackerEnableOff => exact k.toServeKeeps.takeOwned (k.owned fun q => q.trackerEnableOff) s h
  | writeTrackerItem => exact k.toServeKeeps.takeOwned (k.owned fun q => q.writeTrackerItem) s h
  | sequencerEnableOn => exact k.toServeKeeps.takeOwned (k.owned fun q => q.sequencerEnableOn) s h
  | sequencerEnableOff => exact k.toServeKeeps.takeOwned (k.owned fun q => q.sequencerEnableOff) s h
  | writeFreeGateSet => exact k.toServeKeeps.takeOwned (k.owned fun q => q.writeFreeGateSet) s h
  | writeSyncOutEnable => exact k.toServeKeeps.takeOwned (k.owned fun q => q.writeSyncOutEnable) s h
  | writeStationAddress => exact k.toServeKeeps.takeOwned (k.owned fun q => q.writeStationAddress) s h
  | writeManagementType => exact k.toServeKeeps.takeOwned (k.owned fun q => q.writeManagementType) s h
  | writeDefaultAction => exact k.toServeKeeps.takeOwned (k.owned fun q => q.writeDefaultAction) s h
  | writeQuota => exact k.toServeKeeps.takeOwned (k.owned fun q => q.writeQuota) s h
  | writeNoticeEnableSet => exact k.toServeKeeps.takeOwned (k.owned fun q => q.writeNoticeEnableSet) s h
  | resetTraffic => exact k.toServeKeeps.takeOwned (k.owned fun q => q.resetTraffic) s h
  | resetFull => exact k.toServeKeeps.takeOwned k.resetFull s h
  | writeMatch => exact k.toServeKeeps.takeOwned (k.owned fun q => q.writeMatch) s h
  | writeProgram => exact k.toServeKeeps.takeOwned (k.owned fun q => q.writeProgram) s h
  | writeProgramHeader => exact k.toServeKeeps.takeOwned (k.owned fun q => q.writeProgramHeader) s h
  | commit => exact k.toServeKeeps.takeOwned (k.owned fun q => q.commit) s h
  | cancelCommit => exact k.toServeKeeps.takeOwned (k.owned fun q => q.cancelCommit) s h
  | halt => exact k.toServeKeeps.takeOwned (k.owned fun q => q.halt) s h
  | resume => exact k.toServeKeeps.takeOwned (k.owned fun q => q.resume) s h
  | readCountersClear => exact k.toServeKeeps.takeOwned (k.owned fun q => q.readCountersClear) s h
  | renew => exact k.toServeKeeps.takeOwned k.renew s h
  | closeSession => exact k.toServeKeeps.takeOwned (k.owned fun _ => .withoutArguments (.ofReads fun _ _ => rfl)) s h

theorem MoveKeeps.tick (s : State) (h : P s) : P (Machine.tick s) := by
  rcases tick_cases s with ⟨_, e⟩ | ⟨_, _, _, e⟩ | ⟨_, _, e⟩ | ⟨_, x, n, _, e⟩ <;> rw [e]
  · exact h
  · exact k.fifo s s.agent.fifo true id h
  · exact k.time _ (s.time + 1) s.tieCount [] s.pending (k.fifo s s.agent.fifo false id h)
  · exact k.time s s.time n _ _ h

/-- Every step keeps a property that the primitive moves keep. -/
theorem MoveKeeps.step {s t : State} (e : Machine.step s = .next t) (h : P s) : P t := by
  unfold Machine.step at e
  split at e
  · cases e
    exact k.tick s h
  · exact k.exec _ _ (k.time s s.time s.tieCount s.handed _ h) t e

end

end Sys2Proof.Machine
end

section
/-! PROOF. The invariants of the memory, the capacities, the session, the items, the programs and the ports (R2, R24, R27, R35, R89, R100, R140, R150,
R155, R177): the primitive moves keep each. -/

namespace Sys2Proof.Machine

/-! ### The cells' memory -/

/-- Freed and flushed records leave the bytes of the cells alone (R125). -/
theorem flushQueue_memory (p : Port) (q : QueueName) (s : State) : (flushQueue p q s).pool.memory = s.pool.memory :=
  (flushQueue_frees p q s).memory

theorem cellsCanonical_moves : MoveKeeps State.cellsCanonical where
  hold s p x h := by
    unfold holdHead
    split <;> exact h
  start _ _ _ _ _ _ _ _ h := h
  store _ _ _ _ _ _ _ _ h := storeFrame_wf _ _ _ h
  flag _ _ _ _ h := h
  abort _ _ _ _ h := h
  queue s p q h := by
    unfold State.cellsCanonical
    rwa [flushQueue_memory]
  linkDown s p h := by
    unfold State.cellsCanonical discardInFlight
    split
    · rwa [(abortTransmission_frees p _).1.memory]
    · exact h
  powerOn _ _ _ _ _ := reset_memory_wf

/-- Settles O52: only an admission writes the memory, and a write keeps the canonical form. -/
theorem stepKeepsCellsCanonical : Obligations.StepKeepsCellsCanonical :=
  fun _ _ h e => cellsCanonical_moves.step e h

/-! ### Properties that traffic leaves alone -/

/-- A link down of a property that neither traffic nor the ports reach. -/
theorem keeps_linkDown {P : State → Prop} (traffic : ∀ s t : State, s.sameButTraffic t → P s → P t)
    (ports : ∀ s x, P s → P { s with ports := x }) (s : State) (p : Port) (h : P s) :
    P (discardInFlight p (releaseReceiver p (s.setLink p .down))) :=
  traffic _ _ (discardInFlight_same p _) (ports _ _ (ports s _ h))

theorem capacitiesKept_traffic (s t : State) (k : s.sameButTraffic t) (h : s.capacitiesKept) : t.capacitiesKept := by
  obtain ⟨_, _, _, _, _, tracker, _, _, agent, _, notices, _⟩ := k.fields
  unfold State.capacitiesKept
  rwa [tracker, agent, notices]

theorem capacitiesKept_moves : MoveKeeps State.capacitiesKept where
  toGateKeeps := (trafficFree capacitiesKept_traffic).1
  toFlushKeeps := (trafficFree capacitiesKept_traffic).2
  join s n _ room h := by
    obtain ⟨fifo, -, history⟩ := h
    exact ⟨fifo, by simpa using room, history⟩
  sent s n rest hd h := by
    obtain ⟨fifo, notices, history⟩ := h
    rw [hd, List.length_cons] at notices
    exact ⟨fifo, Nat.le_of_succ_le notices, history⟩
  tracker s t b ht h := by
    obtain ⟨fifo, notices, history⟩ := h
    exact ⟨fifo, notices, ht history⟩
  fifo s slots b hf h := by
    obtain ⟨fifo, rest⟩ := h
    exact ⟨hf fifo, rest⟩
  linkDown := keeps_linkDown capacitiesKept_traffic fun _ _ h => h
  ended s h := by
    obtain ⟨fifo, -, history⟩ := h
    exact ⟨fifo, Nat.zero_le _, history⟩
  powerOn _ _ _ _ _ := ⟨Nat.zero_le _, Nat.zero_le _, Nat.zero_le _, rfl⟩

theorem sessionSound_traffic (s t : State) (k : s.sameButTraffic t) (h : s.sessionSound) : t.sessionSound := by
  obtain ⟨_, _, _, _, _, _, _, _, agent, _, notices, _⟩ := k.fields
  unfold State.sessionSound
  rwa [agent, notices]

theorem State.sessionSound_of_open {s : State} (o : s.agent.session.isOpen = true) :
    s.sessionSound ↔ s.agent.session.leaseWait = some s.agent.session.leaseExpiry := by
  unfold State.sessionSound
  rw [if_pos o]

/-- Without a session there is no notice to offer (R150). -/
theorem State.sessionSound.open_of_notice {s : State} {n : Notice} {rest : List Notice} (h : s.sessionSound)
    (hd : s.notices.records = n :: rest) : s.agent.session.isOpen = true := by
  by_contra shut
  unfold State.sessionSound at h
  rw [if_neg shut] at h
  obtain ⟨-, -, empty, -⟩ := h
  rw [hd] at empty
  cases empty

theorem sessionSound_moves : MoveKeeps State.sessionSound where
  toGateKeeps := (trafficFree sessionSound_traffic).1
  toFlushKeeps := (trafficFree sessionSound_traffic).2
  join s n o _ h := Iff.mpr (State.sessionSound_of_open o) ((State.sessionSound_of_open o).mp h)
  lost s o h := Iff.mpr (State.sessionSound_of_open o) ((State.sessionSound_of_open o).mp h)
  sent s n rest hd h :=
    have o := h.open_of_notice hd
    Iff.mpr (State.sessionSound_of_open o) ((State.sessionSound_of_open o).mp h)
  session s v o wait _ _ := (State.sessionSound_of_open o).mpr wait
  record s r a o h := Iff.mpr (State.sessionSound_of_open o) ((State.sessionSound_of_open o).mp h)
  linkDown := keeps_linkDown sessionSound_traffic fun _ _ h => h
  ended _ _ := ⟨rfl, rfl, rfl, rfl⟩
  powerOn _ _ _ _ _ := ⟨rfl, rfl, rfl, rfl⟩

/-- Settles O54: the moves of the FIFO, the notice queue and the history have room, and those of the session record keep it sound. -/
theorem stepKeepsCapacitiesAndSession : Obligations.StepKeepsCapacitiesAndSession :=
  ⟨fun _ _ h e => capacitiesKept_moves.step e h, fun _ _ h e => sessionSound_moves.step e h⟩

theorem itemsInRange_traffic (s t : State) (k : s.sameButTraffic t) (h : s.itemsInRange) : t.itemsInRange := by
  obtain ⟨_, _, _, _, _, _, _, _, agent, config, _⟩ := k.fields
  unfold State.itemsInRange
  rwa [agent, config]

/-- The items at power-on lie in their ranges, whatever the address straps (R94, R140). -/
theorem ConfigItems.powerOn_wellFormed (straps : Straps) : (ConfigItems.powerOn straps).wellFormed = true := by
  have address : ∀ a : BitVec 4, individualAddress (strappedAddress a) = true := by decide
  have others := (ConfigItems.wellFormed_iff (ConfigItems.powerOn lowStraps)).mp (by decide)
  exact (ConfigItems.wellFormed_iff _).mpr ⟨address _, others.2⟩

theorem itemsInRange_moves : MoveKeeps State.itemsInRange where
  toGateKeeps := (trafficFree itemsInRange_traffic).1
  toFlushKeeps := (trafficFree itemsInRange_traffic).2
  config _ _ hc h := ⟨hc h.1, h.2⟩
  session _ _ _ _ range h := ⟨h.1, range h.2⟩
  linkDown := keeps_linkDown itemsInRange_traffic fun _ _ h => h
  powerOn straps _ _ _ _ := ⟨ConfigItems.powerOn_wellFormed straps, rfl⟩

/-- Settles O55: an item and a lease length are stored only within their ranges. -/
theorem stepKeepsItemsInRange : Obligations.StepKeepsItemsInRange :=
  fun _ _ h e => itemsInRange_moves.step e h

theorem programsSound_traffic (s t : State) (k : s.sameButTraffic t) (h : s.programsSound) : t.programsSound := by
  obtain ⟨_, _, _, _, _, _, _, programs, _⟩ := k.fields
  unfold State.programsSound
  rwa [programs]

theorem ProgramStore.powerOn_sound : ProgramStore.powerOn.sound :=
  ⟨by decide +kernel, fun h => (nomatch h), by decide +kernel, by decide +kernel⟩

theorem programsSound_moves : MoveKeeps State.programsSound where
  toGateKeeps := (trafficFree programsSound_traffic).1
  toFlushKeeps := (trafficFree programsSound_traffic).2
  programs _ _ hp h := hp h
  linkDown := keeps_linkDown programsSound_traffic fun _ _ h => h
  powerOn _ _ _ _ _ := ProgramStore.powerOn_sound

/-- Settles O56: a swap and a write of the staged bank keep the programs sound, and nothing else reaches them. -/
theorem stepKeepsProgramsSound : Obligations.StepKeepsProgramsSound :=
  fun _ _ h e => programsSound_moves.step e h

/-! ### Ports that are DOWN -/

/-- A link down leaves the transmitter of the port idle and the schedulers else as they were (R75, R89). -/
theorem discardInFlight_egress (p : Port) (s : State) :
    (discardInFlight p s).egress = s.egress.set p { s.sched p with inFlight := none } := by
  unfold discardInFlight
  split
  · exact (abortTransmission_frees p _).2
  · rename_i idle
    exact (set_idle p s (by simpa using idle)).symm

theorem downPortsQuiet_moves : MoveKeeps State.downPortsQuiet where
  hold s p x h r down := by
    rw [holdHead_port] at *
    rw [holdHead_sched]
    exact h r down
  start s p q x rest _ up _ h r down := by
    obtain ⟨idle, quiet⟩ := h r down
    refine ⟨idle, ?_⟩
    have other : r ≠ p := fun e => by rw [← e] at up; exact absurd (up.symm.trans down) (by decide)
    rw [startHead, State.sched_setInFlight, if_neg other, State.sched_setQueue, if_neg other]
    exact quiet
  store s p q b x rest _ _ h r down := by
    obtain ⟨idle, quiet⟩ := h r down
    exact ⟨idle, (inFlight_storeAdmitted r).trans quiet⟩
  present s p x h r down := by
    obtain ⟨idle, quiet⟩ := h r down
    refine ⟨idle, ?_⟩
    rw [State.sched_setSched]
    split
    · rename_i e
      rw [← e]
      exact quiet
    · exact quiet
  flag s p f flying h r down := by
    obtain ⟨idle, quiet⟩ := h r down
    refine ⟨idle, ?_⟩
    have other : r ≠ p := fun e => by rw [← e, quiet] at flying; cases flying
    exact (congrArg Egress.inFlight ((State.sched_setInFlight s p r _).trans (if_neg other))).trans quiet
  abort s p f _ h r down := by
    obtain ⟨idle, quiet⟩ := h r down
    refine ⟨idle, ?_⟩
    rw [State.sched_setInFlight]
    split
    · rfl
    · exact quiet
  queue s p q h r down := by
    have same := (flushKeeps_same s).queue s p q (.refl s)
    rw [same.port] at *
    obtain ⟨idle, quiet⟩ := h r down
    refine ⟨idle, ?_⟩
    rw [flushQueue, State.sched_setQueue]
    split <;> rw [flushRecords_sched] <;> exact quiet
  receiver s p x hx h r down := by
    obtain ⟨idle, quiet⟩ := h r (by rw [State.port_setPort] at down; split at down <;> simp_all)
    refine ⟨?_, quiet⟩
    rw [State.port_setPort] at down ⊢
    split
    · rename_i e
      subst e
      rw [if_pos rfl] at down
      exact hx down idle
    · exact idle
  linkUp s p h r down := by
    rw [State.setLink, State.port_setPort] at *
    split at down
    · cases down
    · rename_i other
      rw [if_neg other]
      exact h r down
  linkDown s p h r down := by
    have same := discardInFlight_same p (releaseReceiver p (s.setLink p .down))
    have sched : (discardInFlight p (releaseReceiver p (s.setLink p .down))).sched r
        = if r = p then { s.sched r with inFlight := none } else s.sched r := by
      rw [State.sched, discardInFlight_egress, Pair.get_set]
      split
      · rename_i e
        rw [e]
        rfl
      · rfl
    rw [same.port, releaseReceiver, State.port_setPort, State.setLink, State.port_setPort, State.port_setPort] at *
    rw [sched]
    by_cases e : r = p
    · simp [e]
    · simp only [if_neg e] at down ⊢
      exact h r down
  powerOn _ _ _ _ _ r _ := by cases r <;> exact ⟨rfl, rfl⟩

/-- Settles O58: a frame starts on a port that is UP alone, and a link down ends reception and transmission. -/
theorem stepKeepsDownPortsQuiet : Obligations.StepKeepsDownPortsQuiet :=
  fun _ _ h e => downPortsQuiet_moves.step e h

end Sys2Proof.Machine
end

section
/-! PROOF. The pool (R117, R118, R119, R125): each record stays in one place and each cell on one list, whatever moves; and the part that is held in
reset (R95). -/

namespace Sys2Proof.Machine

/-! ### The records that are held -/

/-- A list with one element replaced holds what it held, but for that element's part. -/
theorem flatMap_set_perm {α β : Type} [DecidableEq β] (f : α → List β) (l : List α) (i : Nat) (hi : i < l.length) (x : α) :
    ((l.set i x).flatMap f ++ f l[i]).Perm (l.flatMap f ++ f x) := by
  have split : l = l.take i ++ l[i] :: l.drop (i + 1) := by simp
  have before : l.flatMap f = (l.take i).flatMap f ++ (f l[i] ++ (l.drop (i + 1)).flatMap f) := by
    conv_lhs => rw [split, List.flatMap_append, List.flatMap_cons]
  have after : (l.set i x).flatMap f = (l.take i).flatMap f ++ (f x ++ (l.drop (i + 1)).flatMap f) := by
    rw [List.set_eq_take_append_cons_drop, if_pos hi]
    simp
  rw [before, after, List.perm_iff_count]
  intro b
  simp only [List.count_append]
  omega

/-- The held records with a queue replaced. -/
theorem heldRecords_setQueue (s : State) (p : Port) (q : QueueName) (v : Queue) :
    ((s.setQueue p q v).heldRecords ++ (s.queue p q).records).Perm (s.heldRecords ++ v.records) := by
  have queued := flatMap_set_perm Queue.records (s.sched p).queues.toList q.val (by simp) v
  rw [List.perm_iff_count] at queued ⊢
  intro h
  have moved := queued h
  simp only [State.heldRecords, State.queuedRecords, State.inFlightRecord, State.sched_setQueue, State.queue]
  rw [← Vector.toList_set q.isLt] at moved
  cases p <;> simp [List.count_append] at moved ⊢ <;> omega

/-- The held records with a transmitter replaced. -/
theorem heldRecords_setInFlight (s : State) (p : Port) (f : Option InFlight) :
    ((s.setInFlight p f).heldRecords ++ s.inFlightRecord p).Perm
      (s.heldRecords ++ (f.map InFlight.record).toList) := by
  rw [List.perm_iff_count]
  intro h
  simp only [State.heldRecords, State.queuedRecords, State.inFlightRecord, State.sched_setInFlight]
  cases p <;> simp [List.count_append] <;> omega

theorem mem_heldRecords_of_queue {s : State} {p : Port} {q : QueueName} {h : Handle} (mem : h ∈ (s.queue p q).records) :
    h ∈ s.heldRecords := by
  have queued : h ∈ s.queuedRecords p := List.mem_flatMap.mpr ⟨s.queue p q, by simp [State.queue], mem⟩
  unfold State.heldRecords
  cases p <;> simp [queued]

theorem mem_heldRecords_of_inFlight {s : State} {p : Port} {h : Handle} (mem : h ∈ s.inFlightRecord p) :
    h ∈ s.heldRecords := by
  unfold State.heldRecords
  cases p <;> simp [mem]

/-- In a sound pool each held record stands in one place, and is not free (R118). -/
theorem State.poolWhole.nodup {s : State} (whole : s.poolWhole) : (s.pool.freeRecords ++ s.heldRecords).Nodup :=
  whole.1.nodup_iff.mpr (List.nodup_finRange 256)

/-! ### Moves that leave every record in its place -/

/-- Two records that differ at most in the guard-held flag. -/
def FrameRecord.sameFrame (a b : FrameRecord) : Prop :=
  a.length = b.length ∧ a.port = b.port ∧ a.queue = b.queue ∧ a.cells = b.cells

theorem FrameRecord.sameFrame.cells {a b : FrameRecord} (h : a.sameFrame b) : a.cells = b.cells := by
  obtain ⟨-, -, -, cells⟩ := h
  exact cells

/-- A move that leaves the free lists, the queues, the transmitters' records and all but the flags of the records alone keeps the pool sound. -/
theorem State.poolWhole.stays {s t : State} (whole : s.poolWhole) (records : t.pool.freeRecords = s.pool.freeRecords)
    (cells : t.pool.freeCells = s.pool.freeCells) (queues : ∀ p, (t.sched p).queues = (s.sched p).queues)
    (flying : ∀ p, t.inFlightRecord p = s.inFlightRecord p) (frames : ∀ h, (t.record h).sameFrame (s.record h)) :
    t.poolWhole := by
  obtain ⟨places, cellPlaces, counts, named, sent, needed⟩ := whole
  have queue : ∀ p q, t.queue p q = s.queue p q := fun p q => by rw [State.queue, queues]; rfl
  have held : t.heldRecords = s.heldRecords := by
    simp only [State.heldRecords, State.queuedRecords, queues, flying]
  have recordCells : (fun h => (t.record h).cells) = fun h => (s.record h).cells := funext fun h => (frames h).cells
  refine ⟨by rwa [records, held], by rwa [cells, held, recordCells], fun p q => ?_, fun p q h mem => ?_, fun p h mem => ?_,
    fun h mem => ?_⟩
  · simpa only [queue, (frames _).cells] using counts p q
  · rw [queue] at mem
    rw [(frames h).2.1, (frames h).2.2.1]
    exact named p q h mem
  · rw [flying] at mem
    rw [(frames h).2.1]
    exact sent p h mem
  · rw [held] at mem
    rw [(frames h).1, (frames h).cells]
    exact needed h mem

theorem FrameRecord.sameFrame.refl (a : FrameRecord) : a.sameFrame a := ⟨rfl, rfl, rfl, rfl⟩

/-- A head that is passed over keeps its place (R70). -/
theorem poolWhole_hold (s : State) (p : Port) (h : Handle) (whole : s.poolWhole) : (holdHead p h s).poolWhole := by
  unfold holdHead
  split
  · exact whole
  · refine whole.stays rfl rfl (fun _ => rfl) (fun _ => rfl) fun k => ?_
    rw [show ∀ f, ((s.setRecord h { s.record h with guardHeld := true }).countPort p f).record k
      = (s.setRecord h { s.record h with guardHeld := true }).record k from fun _ => rfl, State.record_setRecord]
    split
    · rename_i e
      rw [e]
      exact .refl _
    · exact .refl _

theorem poolWhole_present (s : State) (p : Port) (x : Presentation) (whole : s.poolWhole) :
    (s.setSched p { s.sched p with presentation := x }).poolWhole :=
  whole.stays rfl rfl (fun r => by cases p <;> cases r <;> rfl) (fun r => by cases p <;> cases r <;> rfl) fun _ => .refl _

theorem poolWhole_flag (s : State) (p : Port) (f : InFlight) (flying : (s.sched p).inFlight = some f) (whole : s.poolWhole) :
    ((s.setInFlight p (some { f with overrunCounted := true })).countPort p
      (fun c => { c with overruns := Count.up c.overruns })).poolWhole := by
  refine whole.stays rfl rfl (fun r => by cases p <;> cases r <;> rfl) (fun r => ?_) fun _ => .refl _
  have sched : ∀ g, ((s.setInFlight p (some { f with overrunCounted := true })).countPort p g).sched r
      = (s.setInFlight p (some { f with overrunCounted := true })).sched r := fun _ => rfl
  rw [State.inFlightRecord, sched, State.sched_setInFlight]
  split
  · rename_i e
    rw [e, State.inFlightRecord, flying]
    rfl
  · rfl

/-! ### Records that are freed -/

/-- Records leave their places for the free-record list, and their cells for the free-cell list (R125, R126). -/
theorem State.poolWhole.frees {s t : State} {p : Port} {freed : List Handle} (whole : s.poolWhole) (f : s.freesAt t p freed)
    (places : (t.heldRecords ++ freed).Perm s.heldRecords)
    (queues : ∀ r q, t.queue r q = s.queue r q ∨ t.queue r q = Queue.empty)
    (flying : ∀ r, ∀ h ∈ t.inFlightRecord r, h ∈ s.inFlightRecord r) : t.poolWhole := by
  have nodup : (t.heldRecords ++ freed).Nodup := places.nodup_iff.mpr (List.nodup_append.mp whole.nodup).2.1
  obtain ⟨heldNodup, freedNodup, apart⟩ := List.nodup_append.mp nodup
  have same : ∀ h ∈ t.heldRecords, t.record h = s.record h := fun h mem => f.keeps h fun hf => apart h mem h hf rfl
  obtain ⟨records, cells, counts, named, sent, needed⟩ := whole
  refine ⟨?_, ?_, fun r q => ?_, fun r q h mem => ?_, fun r h mem => ?_, fun h mem => ?_⟩
  · rw [f.records, List.append_assoc]
    exact ((List.perm_append_comm.trans places).append_left _).trans records
  · have listed : t.heldRecords.flatMap (fun h => (t.record h).cells) = t.heldRecords.flatMap (fun h => (s.record h).cells) :=
      List.flatMap_congr fun h mem => by rw [same h mem]
    rw [f.cells freedNodup, listed, List.append_assoc, ← List.flatMap_append]
    exact (((List.perm_append_comm.trans places).flatMap_right _).append_left _).trans cells
  · rcases queues r q with e | e
    · have list : (t.queue r q).records.map (fun h => (t.record h).cells.length)
          = (t.queue r q).records.map (fun h => (s.record h).cells.length) :=
        List.map_congr_left fun h mem => by rw [same h (mem_heldRecords_of_queue mem)]
      rw [list, e]
      exact counts r q
    · rw [e]
      exact ⟨rfl, rfl⟩
  · rw [same h (mem_heldRecords_of_queue mem)]
    rcases queues r q with e | e <;> rw [e] at mem
    · exact named r q h mem
    · cases mem
  · rw [same h (mem_heldRecords_of_inFlight mem)]
    exact sent r h (flying r h mem)
  · rw [same h mem]
    exact needed h (places.subset (List.mem_append_left _ mem))

/-- An abort of any transmitter keeps the pool sound (R75). -/
theorem poolWhole_abortTransmission (s : State) (p : Port) (whole : s.poolWhole) : (abortTransmission p s).poolWhole := by
  obtain ⟨freed, egress⟩ := abortTransmission_frees p s
  have same : (abortTransmission p s).heldRecords = (s.setInFlight p none).heldRecords := by
    simp only [State.heldRecords, State.queuedRecords, State.inFlightRecord, State.sched, egress]
    rfl
  refine whole.frees freed ?_ (fun r q => .inl ?_) fun r h mem => ?_
  · rw [same]
    simpa using heldRecords_setInFlight s p none
  · have sched : (abortTransmission p s).sched r = (s.setInFlight p none).sched r := by rw [State.sched, egress]; rfl
    rw [State.queue, sched]
    exact State.queue_setInFlight s p r q none
  · rw [State.inFlightRecord, State.sched, egress, Pair.get_set] at mem
    split at mem
    · cases mem
    · exact mem

theorem poolWhole_abort (s : State) (p : Port) (f : InFlight) (flying : (s.sched p).inFlight = some f) (whole : s.poolWhole) :
    ((freeRecord f.record s).setInFlight p none).poolWhole := by
  have aborted := poolWhole_abortTransmission s p whole
  rwa [abortTransmission, flying] at aborted

theorem poolWhole_flushQueue (s : State) (p : Port) (q : QueueName) (whole : s.poolWhole) : (flushQueue p q s).poolWhole := by
  have sched : ∀ r, (flushQueue p q s).sched r = (s.setQueue p q Queue.empty).sched r := fun r => by
    rw [flushQueue, State.sched_setQueue, State.sched_setQueue, flushRecords_sched]
  have held : (flushQueue p q s).heldRecords = (s.setQueue p q Queue.empty).heldRecords := by
    simp only [State.heldRecords, State.queuedRecords, State.inFlightRecord, sched]
  refine whole.frees (flushQueue_frees p q s) ?_ (fun r u => ?_) fun r h mem => ?_
  · rw [held]
    simpa [Queue.empty] using heldRecords_setQueue s p q Queue.empty
  · rw [State.queue, sched, ← State.queue, State.queue_setQueue]
    split
    · exact .inr rfl
    · exact .inl rfl
  · rw [State.inFlightRecord, sched, State.sched_setQueue] at mem
    split at mem <;> exact mem

/-! ### Records that move -/

/-- The head of a queue that starts is held as before (R72). -/
theorem heldRecords_startHead (s : State) (p : Port) (q : QueueName) (h : Handle) (rest : List Handle)
    (idle : (s.sched p).inFlight = none) (hd : (s.queue p q).records = h :: rest) :
    (startHead p q h rest s).heldRecords.Perm s.heldRecords := by
  have queue := heldRecords_setQueue s p q
    ⟨rest, (s.queue p q).frames - 1, (s.queue p q).cells - (s.record h).cells.length⟩
  have transmitter := heldRecords_setInFlight (s.setQueue p q
    ⟨rest, (s.queue p q).frames - 1, (s.queue p q).cells - (s.record h).cells.length⟩) p
    (some ⟨h, s.time, Time.plus s.time (s.recordTime p h), false⟩)
  have before : (s.setQueue p q ⟨rest, (s.queue p q).frames - 1,
      (s.queue p q).cells - (s.record h).cells.length⟩).inFlightRecord p = [] := by
    rw [State.inFlightRecord, State.sched_setQueue, if_pos rfl]
    simp [idle]
  rw [before, List.append_nil] at transmitter
  rw [hd] at queue
  rw [List.perm_iff_count] at *
  intro k
  have moved := queue k
  have flies := transmitter k
  simp only [List.count_append, List.count_cons, Option.map_some, Option.toList_some, List.count_nil] at moved flies
  unfold startHead
  simp only
  omega

/-- The head of a queue moves into the idle transmitter (R72, R124). -/
theorem poolWhole_start (s : State) (p : Port) (q : QueueName) (h : Handle) (rest : List Handle)
    (idle : (s.sched p).inFlight = none) (hd : (s.queue p q).records = h :: rest) (whole : s.poolWhole) :
    (startHead p q h rest s).poolWhole := by
  have held := heldRecords_startHead s p q h rest idle hd
  obtain ⟨records, cells, counts, named, sent, needed⟩ := whole
  have queue : ∀ r u, (startHead p q h rest s).queue r u = if r = p ∧ u = q then
      ⟨rest, (s.queue p q).frames - 1, (s.queue p q).cells - (s.record h).cells.length⟩ else s.queue r u := fun r u => by
    rw [startHead, State.queue_setInFlight, State.queue_setQueue]
  have flying : ∀ r, (startHead p q h rest s).inFlightRecord r = if r = p then [h] else s.inFlightRecord r := fun r => by
    rw [startHead, State.inFlightRecord, State.sched_setInFlight]
    split
    · rfl
    · rename_i other
      rw [State.sched_setQueue, if_neg other]
      rfl
  obtain ⟨frames, counted⟩ := counts p q
  rw [hd] at frames counted
  have sub : ∀ r u, ∀ k ∈ ((startHead p q h rest s).queue r u).records, k ∈ (s.queue r u).records := fun r u k mem => by
    rw [queue] at mem
    split at mem
    · rename_i e
      rw [e.1, e.2, hd]
      exact List.mem_cons_of_mem _ mem
    · exact mem
  refine ⟨(held.append_left _).trans records, ((held.flatMap_right _).append_left _).trans cells, fun r u => ?_,
    fun r u k mem => named r u k (sub r u k mem), fun r k mem => ?_, fun k mem => needed k (held.subset mem)⟩
  · rw [queue]
    split
    · simp only [List.length_cons, List.map_cons, List.sum_cons] at frames counted
      exact ⟨by rw [frames, Nat.add_sub_cancel], by rw [counted, Nat.add_sub_cancel_left]; rfl⟩
    · exact counts r u
  · rw [flying] at mem
    split at mem
    · rename_i e
      rw [List.mem_singleton.mp mem, e]
      exact (named p q h (by rw [hd]; exact List.mem_cons_self)).1
    · exact sent r k mem

/-- An admitted frame takes the first free record and the first free cells (R121). -/
theorem poolWhole_store (s : State) (p : Port) (q : QueueName) (bytes : List Byte) (h : Handle) (rest : List Handle)
    (free : s.pool.freeRecords = h :: rest) (room : cellsNeeded bytes.length ≤ s.pool.freeCells.length) (whole : s.poolWhole) :
    (storeAdmitted p q bytes h rest s).poolWhole := by
  have fresh : h ∉ s.heldRecords := fun mem => by
    have distinct := whole.nodup
    rw [free] at distinct
    exact (List.nodup_cons.mp distinct).1 (List.mem_append_right _ mem)
  have record := record_storeAdmitted (p := p) (q := q) (bytes := bytes) (h := h) (rest := rest) (s := s)
  have queue := queue_storeAdmitted (p := p) (q := q) (bytes := bytes) (h := h) (rest := rest) (s := s)
  have same : ∀ k ∈ s.heldRecords, (storeAdmitted p q bytes h rest s).record k = s.record k := fun k mem => by
    rw [record, if_neg fun e : k = h => fresh (e ▸ mem)]
  have taken : (s.pool.freeCells.take (cellsNeeded bytes.length)).length = cellsNeeded bytes.length :=
    List.length_take_of_le room
  have flying : ∀ r, (storeAdmitted p q bytes h rest s).inFlightRecord r = s.inFlightRecord r := fun r => by
    rw [State.inFlightRecord, inFlight_storeAdmitted]
    rfl
  have held : (storeAdmitted p q bytes h rest s).heldRecords.Perm (s.heldRecords ++ [h]) := by
    have moved := heldRecords_setQueue s p q ⟨(s.queue p q).records ++ [h], (s.queue p q).frames + 1,
      (s.queue p q).cells + cellsNeeded bytes.length⟩
    rw [List.perm_iff_count] at *
    intro k
    have count := moved k
    simp only [List.count_append] at count ⊢
    change (s.setQueue p q _).heldRecords.count k = _
    omega
  have mem_held : ∀ k ∈ (storeAdmitted p q bytes h rest s).heldRecords, k = h ∨ k ∈ s.heldRecords := fun k mem => by
    simpa [or_comm] using held.subset mem
  obtain ⟨records, cells, counts, named, sent, needed⟩ := whole
  refine ⟨?_, ?_, fun r u => ?_, fun r u k mem => ?_, fun r k mem => ?_, fun k mem => ?_⟩
  · rw [free] at records
    refine (held.append_left _).trans (List.Perm.trans ?_ records)
    rw [← List.append_assoc]
    exact List.perm_append_singleton h (rest ++ s.heldRecords)
  · have listed : s.heldRecords.flatMap (fun k => ((storeAdmitted p q bytes h rest s).record k).cells)
        = s.heldRecords.flatMap (fun k => (s.record k).cells) := List.flatMap_congr fun k mem => by rw [same k mem]
    refine ((held.flatMap_right _).append_left _).trans (List.Perm.trans ?_ cells)
    rw [List.flatMap_append, listed, List.flatMap_singleton, record, if_pos rfl, ← List.append_assoc]
    refine List.perm_append_comm.trans ?_
    rw [← List.append_assoc]
    exact .of_eq (congrArg (· ++ _) (List.take_append_drop _ _))
  · have listed : ∀ r u, (s.queue r u).records.map (fun k => ((storeAdmitted p q bytes h rest s).record k).cells.length)
        = (s.queue r u).records.map (fun k => (s.record k).cells.length) := fun r u =>
      List.map_congr_left fun k mem => by rw [same k (mem_heldRecords_of_queue mem)]
    rw [queue]
    split
    · obtain ⟨frames, counted⟩ := counts p q
      have new : ((storeAdmitted p q bytes h rest s).record h).cells.length = cellsNeeded bytes.length := by
        rw [record, if_pos rfl]
        exact taken
      simp only [List.length_append, List.length_singleton, List.map_append, List.sum_append, List.map_singleton,
        List.sum_singleton, listed, new, frames, counted, and_self]
    · rw [listed]
      exact counts r u
  · rw [queue] at mem
    split at mem
    · rename_i e
      rcases List.mem_append.mp mem with old | new
      · rw [same k (mem_heldRecords_of_queue old), e.1, e.2]
        exact named p q k old
      · rw [record, if_pos (List.mem_singleton.mp new), e.1, e.2]
        exact ⟨rfl, rfl⟩
    · rw [same k (mem_heldRecords_of_queue mem)]
      exact named r u k mem
  · rw [flying] at mem
    rw [same k (mem_heldRecords_of_inFlight mem)]
    exact sent r k mem
  · rcases mem_held k mem with e | old
    · rw [record, if_pos e]
      exact taken
    · rw [same k old]
      exact needed k old

theorem poolWhole_powerOn (straps : Straps) (b : Bool) (phy : Pair Link) (n : Nat) (is : List Instr) :
    (State.powerOn straps b phy n is).poolWhole := by
  have queue : ∀ p q, (State.powerOn straps b phy n is).queue p q = Queue.empty := fun p q => by
    cases p <;> simp [State.queue, State.sched, State.powerOn, Egress.powerOn]
  have flying : ∀ p, (State.powerOn straps b phy n is).inFlightRecord p = [] := fun p => by cases p <;> rfl
  have held : (State.powerOn straps b phy n is).heldRecords = [] := rfl
  have records : (State.powerOn straps b phy n is).pool.freeRecords = List.finRange 256 := by
    simp only [State.powerOn, Pool.powerOn]
  have cells : (State.powerOn straps b phy n is).pool.freeCells = List.finRange 512 := by
    simp only [State.powerOn, Pool.powerOn]
  refine ⟨?_, ?_, fun p q => by simp [queue, Queue.empty], fun p q => by simp [queue, Queue.empty], by simp [flying], by simp [held]⟩
  · rw [held, List.append_nil]
    exact records ▸ .refl _
  · rw [held, List.flatMap_nil, List.append_nil]
    exact cells ▸ .refl _

theorem poolWhole_moves : MoveKeeps State.poolWhole where
  hold := poolWhole_hold
  start s p q h rest idle _ hd := poolWhole_start s p q h rest idle hd
  store := poolWhole_store
  present := poolWhole_present
  flag := poolWhole_flag
  abort := poolWhole_abort
  queue := poolWhole_flushQueue
  linkDown s p whole := by
    unfold discardInFlight
    split
    · exact poolWhole_abortTransmission _ p whole
    · exact whole
  powerOn := poolWhole_powerOn

/-- Settles O59: each move of a record takes it from one place to another, with its cells. -/
theorem stepKeepsPoolWhole : Obligations.StepKeepsPoolWhole :=
  fun _ _ h e => poolWhole_moves.step e h

/-! ### In reset -/

/-- Settles O60: in reset no command but the reset pin's own changes more than the level of a PHY indication. -/
theorem stepKeepsResetHeld : Obligations.StepKeepsResetHeld := by
  intro s t held e low
  unfold step at e
  split at e
  · cases e
    have hs : s.inReset = true := by
      by_contra hn
      simp [(tick_keepsOutputs s).released (by simpa using hn)] at low
    rw [show tick s = s from if_pos hs]
    exact held hs
  · rename_i c rest _
    by_cases hc : c = .resetNAssert
    · subst hc
      cases e
      rfl
    · have hs : s.inReset = true := by
        by_contra hn
        simp [(exec_keepsOutputs c _ hc t e).released (by simpa [State.inReset] using hn)] at low
      rcases exec_inReset (s := { s with pending := rest }) hs c with h | ⟨straps, h⟩ | ⟨phy, h⟩
      · exact absurd h hc
      · subst h
        have out : (sampleLinks (State.powerOn straps true s.pins.phy s.tieCount rest)).inReset = false :=
          ((sampleLink_keepsOutputs .b _).after (sampleLink_keepsOutputs .a _)).released rfl
        have reset : ({ s with pending := rest } : State).inReset = true := hs
        simp only [exec, execResetNRelease, if_pos reset, Host.Outcome.next.injEq] at e
        rw [← e, out] at low
        cases low
      · rw [h] at e
        cases e
        have on := held hs
        generalize s.straps = a, s.pins.phy = b, s.tieCount = n, s.pending = is at on
        subst on
        rfl

end Sys2Proof.Machine
end

section
/-! PROOF. The cadence (section 1.2, R16, R35, R39, R42, R47, R51): the tracker's items, the sequencer's waits and what it presents, and the pending
commit stay in agreement through every operation, and from that through every step. -/

namespace Sys2Proof.Machine

/-- The three agreements that every step keeps together. -/
def State.cadenceSound (s : State) : Prop := s.followsLock ∧ s.trackerSound ∧ s.sequencerSound

theorem State.sameButNotices.cadenceSound {s t : State} (k : s.sameButNotices t) (h : s.cadenceSound) : t.cadenceSound := by
  rw [k]
  exact h

/-! ### The sequencer in each of its states (R39, R42) -/

section
variable {s : State}

/-- A sequencer that is not STOPPED is enabled (R42). -/
theorem State.sequencerSound.enabled (h : s.sequencerSound) (st : s.sequencer.state ≠ .stopped) :
    s.config.sequencerEnable = true := by
  obtain ⟨enable, -⟩ := h
  by_contra off
  exact st (enable.mpr (by simpa using off))

theorem sequencerSound_running_iff (st : s.sequencer.state = .running) :
    s.sequencerSound ↔ s.config.sequencerEnable = true ∧ s.walkTimed ∧ s.sequencer.presentation = runningPresentation s := by
  unfold State.sequencerSound
  simp [st]

theorem sequencerSound_free_iff (st : s.sequencer.state = .free) :
    s.sequencerSound ↔ s.config.sequencerEnable = true ∧ s.sequencer.isUntimed
      ∧ s.sequencer.presentation = freePresentation s := by
  unfold State.sequencerSound
  simp [st]

theorem sequencerSound_stopped_iff (st : s.sequencer.state = .stopped) :
    s.sequencerSound ↔ s.config.sequencerEnable = false ∧ s.sequencer.isUntimed
      ∧ s.sequencer.presentation = freePresentation s := by
  unfold State.sequencerSound
  simp [st]

/-- What HALTED and REJOINING present: the gate sets of the current entry without a guard limit (R39, R56). -/
theorem sequencerSound_frozen_iff (st : s.sequencer.state = .halted ∨ s.sequencer.state = .rejoining) :
    s.sequencerSound ↔ s.config.sequencerEnable = true ∧ s.sequencer.isUntimed
      ∧ s.sequencer.presentation = ⟨⟨s.currentEntry.gates.a, none⟩, ⟨s.currentEntry.gates.b, none⟩⟩ := by
  unfold State.sequencerSound
  obtain st | st := st <;> simp [st]

end

/-- A sequencer in which no walk is timed presents the free gate sets in STOPPED and FREE, whichever bank is active (R39). -/
theorem State.sequencerSound.idle {s t : State} (h : s.sequencerSound) (idle : s.sequencer.state.follows = false)
    (sequencer : t.sequencer = s.sequencer) (config : t.config = s.config) : t.sequencerSound := by
  unfold State.sequencerSound freePresentation at *
  rw [sequencer, config]
  cases st : s.sequencer.state <;> simp [st, SequencerState.follows] at idle h ⊢ <;> exact h

/-! ### The walk -/

/-- An entry that becomes current starts its deadline and no other wait (R47). -/
theorem enterEntry_walkTimed (i : EntryIndex) (m : Time) (s : State) : (enterEntry i m s).walkTimed :=
  ⟨rfl, rfl, rfl, fun h => (nomatch h)⟩

/-- A walk is timed alike whatever its state, presentation and pulse. -/
theorem State.walkTimed.same {s t : State} (h : s.walkTimed) {st : SequencerState} {x : Pair Presentation} {y : Option Time}
    (sequencer : t.sequencer = { s.sequencer with state := st, presentation := x, pulseEnd := y })
    (programs : t.programs = s.programs) : t.walkTimed := by
  unfold State.walkTimed State.currentEntry at *
  rw [sequencer, programs]
  exact h

theorem State.sameButWalk.config {s t : State} (h : s.sameButWalk t) : t.config = s.config := by
  obtain ⟨-, -, -, -, -, -, -, -, -, config, -⟩ := h.fields
  exact config

theorem enterEntry_programs (i : EntryIndex) (m : Time) (s : State) : (enterEntry i m s).programs = s.programs := rfl

theorem moveTo_sequencerSound (i : EntryIndex) (m : Time) {s : State} (running : s.sequencer.state = .running)
    (h : s.sequencerSound) : (moveTo i m s).sequencerSound := by
  have sequencer := moveTo_sequencer i m s
  have programs : (moveTo i m s).programs = (enterEntry i m s).programs := moveTo_programs i m s
  have config : (moveTo i m s).config = s.config := (moveTo_walk i m s).config
  refine (sequencerSound_running_iff ?_).mpr ⟨?_, (enterEntry_walkTimed i m s).same sequencer programs, ?_⟩
  · rw [sequencer]
    exact running
  · rw [config]
    exact h.enabled (by rw [running]; decide)
  · rw [sequencer]
    exact runningPresentation_congr programs.symm (by rw [sequencer]) (by rw [sequencer])

/-- A move of the walk in RUNNING (R47, R49, R51, R52). -/
theorem moveTo_cadenceSound (i : EntryIndex) (m : Time) {s : State} (running : s.sequencer.state = .running)
    (h : s.cadenceSound) : (moveTo i m s).cadenceSound := by
  obtain ⟨⟨commit, lock⟩, tracker, sequencer⟩ := h
  obtain ⟨time, -, -, -, -, -, -, trackerSame, -, config, -, handed, pending⟩ := (moveTo_walk i m s).fields
  have state : (moveTo i m s).sequencer.state = s.sequencer.state := by rw [moveTo_sequencer]; rfl
  refine ⟨⟨?_, ?_⟩, ?_, moveTo_sequencerSound i m running sequencer⟩
  · rwa [moveTo_programs, state]
  · rwa [state, trackerSame]
  · unfold State.trackerSound State.acquiresInTime
    rw [trackerSame, config, time, handed, pending]
    exact tracker

theorem entryDeadlineTaken_cadenceSound {s : State} (running : s.sequencer.state = .running) (h : s.cadenceSound) :
    (entryDeadlineTaken s).cadenceSound := by
  unfold entryDeadlineTaken
  cases e : s.currentEntry.ending with
  | timed off next => exact moveTo_cadenceSound next s.time running h
  | step off settle next =>
    simp only
    split
    · exact moveTo_cadenceSound (s := s.countSequencer _) next s.time running h
    · exact moveTo_cadenceSound next s.time running h
  | tail =>
    obtain ⟨-, ⟨-, deadline, -⟩, -⟩ := (sequencerSound_running_iff running).mp h.2.2
    rw [e] at deadline
    have same : { s with sequencer := { s.sequencer with deadline := none } } = s := by
      rw [show (none : Option Time) = s.sequencer.deadline from deadline.symm]
    rwa [same]

theorem settleTaken_cadenceSound {s : State} (running : s.sequencer.state = .running) (h : s.cadenceSound) :
    (settleTaken s).cadenceSound := by
  unfold settleTaken
  cases e : s.sequencer.pending with
  | some t => exact moveTo_cadenceSound t.target s.time running h
  | none =>
    obtain ⟨-, ⟨-, -, settle, -⟩, -⟩ := (sequencerSound_running_iff running).mp h.2.2
    rw [e] at settle
    have same : { s with sequencer := { s.sequencer with settle := none } } = s := by
      rw [show (none : Option Time) = s.sequencer.settle from settle.symm]
    rwa [same]

theorem stepInEntry_cadenceSound (t : Time) {off : Nat} {settle : BitVec 8} {next : EntryIndex} {s : State}
    (running : s.sequencer.state = .running) (entry : s.currentEntry.ending = .step off settle next) (h : s.cadenceSound) :
    (stepInEntry t settle next s).cadenceSound := by
  obtain ⟨follows, tracker, sequencer⟩ := h
  obtain ⟨enable, ⟨endTime, deadline, settled, target⟩, presents⟩ := (sequencerSound_running_iff running).mp sequencer
  unfold stepInEntry
  simp only
  split
  · exact moveTo_cadenceSound next t running ⟨follows, tracker, sequencer⟩
  · split
    · refine ⟨follows, tracker, Iff.mpr (sequencerSound_running_iff running) ⟨enable, ⟨endTime, deadline, rfl, fun _ => ?_⟩, presents⟩⟩
      refine ⟨off, settle, next, entry, ?_⟩
      rintro _ ⟨⟩
      rfl
    · exact ⟨follows, tracker, Iff.mpr (sequencerSound_running_iff running) ⟨enable, ⟨endTime, deadline, settled, target⟩, presents⟩⟩

theorem takeStepMark_cadenceSound (t : Time) {s : State} (h : s.cadenceSound) : (takeStepMark t s).cadenceSound := by
  have stray : (strayStep s).cadenceSound := h
  unfold takeStepMark
  cases running : s.sequencer.state with
  | stopped | free | halted | rejoining => exact stray
  | running =>
    cases entry : s.currentEntry.ending with
    | timed | tail => exact stray
    | step off settle next =>
      simp only
      split
      · exact stray
      · exact stepInEntry_cadenceSound t running entry h

/-- A cycle start leaves a RUNNING walk that no commit waits for (R46). -/
theorem startCycle_sequencerSound (origin : Time) (ref : Nat) {s : State} (enable : s.config.sequencerEnable = true) :
    (startCycle origin ref s).sequencerSound ∧ (startCycle origin ref s).sequencer.state = .running
      ∧ (startCycle origin ref s).programs.commitPending = false := by
  have sequencer := startCycle_sequencer origin ref s
  have programs : (startCycle origin ref s).programs = (cycleEntered origin ref s).programs := by
    rw [startCycle_programs, cycleEntered_eq, enterEntry_programs, cycleBegun_programs]
  have config : (startCycle origin ref s).config = s.config := (startCycle_walk origin ref s).config
  have timed : (cycleEntered origin ref s).walkTimed := by
    rw [cycleEntered_eq]
    exact enterEntry_walkTimed _ _ _
  refine ⟨(sequencerSound_running_iff (by rw [sequencer])).mpr ⟨by rwa [config], timed.same sequencer programs, ?_⟩,
    by rw [sequencer], by rw [startCycle_programs]; exact ProgramStore.applied_commitPending _⟩
  rw [sequencer]
  exact runningPresentation_congr programs.symm (by rw [sequencer]) (by rw [sequencer])

/-- Under lock a boundary keeps the agreements (R44, R46). -/
theorem takeBoundary_cadenceSound (origin : Time) (ref : Nat) {s : State} (locked : s.tracker.state.isLocked = true)
    (h : s.cadenceSound) : (takeBoundary origin ref s).cadenceSound := by
  obtain ⟨⟨commit, lock⟩, tracker, sequencer⟩ := h
  obtain ⟨time, -, -, -, -, -, -, same, -, config, -, handed, pending⟩ := (takeBoundary_walk origin ref s).fields
  have trackerSound : (takeBoundary origin ref s).trackerSound := by
    unfold State.trackerSound State.acquiresInTime
    rw [same, config, time, handed, pending]
    exact tracker
  have underLock : ∀ b : Bool, b = true → (takeBoundary origin ref s).tracker.state.isLocked = true := fun _ _ => by rwa [same]
  have started (st : s.sequencer.state = .free ∨ s.sequencer.state = .running ∨ s.sequencer.state = .rejoining) :
      (takeBoundary origin ref s).cadenceSound := by
    obtain ⟨sound, running, free⟩ := startCycle_sequencerSound origin ref (s := s.cycleEnded) (by
      rw [(State.cycleEnded_fields s).2.1]
      exact sequencer.enabled (by rcases st with st | st | st <;> rw [st] <;> decide))
    rw [← takeBoundary_eq_startCycle origin ref st] at sound running free
    exact ⟨⟨fun c => (by rw [free] at c; cases c), underLock _⟩, trackerSound, sound⟩
  cases st : s.sequencer.state with
  | free => exact started (.inl st)
  | running => exact started (.inr (.inl st))
  | rejoining => exact started (.inr (.inr st))
  | stopped => 
    rw [show takeBoundary origin ref s = s by simp [takeBoundary, st]]
    exact ⟨⟨commit, lock⟩, tracker, sequencer⟩
  | halted =>
    unfold takeBoundary
    rw [st]
    exact ⟨⟨commit, lock⟩, tracker, sequencer⟩

/-! ### Time -/

theorem Time.plus_eq_iff {a b : Time} {n : Nat} (hn : n < 2 ^ 48) : a = Time.plus b n ↔ (a - b).toNat = n := by
  unfold Time.plus
  have ha := a.isLt
  have hb := b.isLt
  rw [← BitVec.toNat_inj, BitVec.toNat_add, BitVec.toNat_ofNat, BitVec.toNat_sub]
  omega

/-- One tick more has passed since a time, as long as the difference does not wrap (R92). -/
theorem Time.since_succ {a b : Time} (h : (a - b).toNat + 1 < 2 ^ 48) : (a + 1 - b).toNat = (a - b).toNat + 1 := by
  bv_omega

/-! ### The tracker -/

/-- The mean of spans lies between their bounds (R3). -/
theorem meanOfNewest_bounds {n lo hi : Nat} {l : List Nat} (pos : 1 ≤ n) (enough : n ≤ l.length)
    (spans : ∀ x ∈ l, lo ≤ x ∧ x ≤ hi) : lo ≤ meanOfNewest n l ∧ meanOfNewest n l ≤ hi := by
  have newest : ∀ x ∈ l.take n, lo ≤ x ∧ x ≤ hi := fun x hx => spans x (List.mem_of_mem_take hx)
  have count : (l.take n).length = n := List.length_take_of_le enough
  have low := List.card_nsmul_le_sum (l.take n) lo fun x hx => (newest x hx).1
  have high := List.sum_le_card_nsmul (l.take n) hi fun x hx => (newest x hx).2
  rw [count, smul_eq_mul] at low high
  unfold meanOfNewest
  exact ⟨(Nat.le_div_iff_mul_le pos).mpr (by rwa [Nat.mul_comm]), Nat.div_le_of_le_mul high⟩

theorem Tracker.cleared_soundUnder (t : Tracker) (c : ConfigItems) {st : TrackerState} (h : st = .off ∨ st = .seeking) :
    (t.cleared st).soundUnder c := by
  unfold Tracker.soundUnder Tracker.cleared
  obtain rfl | rfl := h <;> exact ⟨rfl, rfl, rfl, rfl, rfl, rfl⟩

theorem Tracker.cleared_historySound (t : Tracker) (c : ConfigItems) (st : TrackerState) : (t.cleared st).historySound c :=
  ⟨rfl, fun _ h => (nomatch h)⟩

/-- Outside ACQUIRING a tracker is sound by its items, its history and its enable. -/
theorem trackerSound_of_state {s : State} (st : s.tracker.state ≠ .acquiring) (sound : s.tracker.soundUnder s.config)
    (history : s.tracker.historySound s.config) (enable : s.tracker.state = .off ↔ s.config.trackerEnable = false) :
    s.trackerSound := ⟨sound, history, fun h => absurd h st, enable⟩

/-- A tracker that is not OFF is enabled (R5, R6). -/
theorem State.trackerSound.enabled {s : State} (h : s.trackerSound) (st : s.tracker.state ≠ .off) :
    s.config.trackerEnable = true := by
  obtain ⟨-, -, -, enable⟩ := h
  by_contra off
  exact st (enable.mpr (by simpa using off))

/-- The tracker is set: under lock, or with no program followed (R16). -/
theorem setTracker_cadenceSound {s : State} {t : Tracker} (lock : t.state.isLocked = true ∨ s.sequencer.state.follows = false)
    (sound : (s.setTracker t).trackerSound) (follows : s.followsLock) (sequencer : s.sequencerSound) :
    (s.setTracker t).cadenceSound := by
  obtain ⟨commit, -⟩ := follows
  refine ⟨⟨commit, fun follows => ?_⟩, sound, sequencer⟩
  rcases lock with locked | idle
  · exact locked
  · exact absurd follows (by rw [show (s.setTracker t).sequencer = s.sequencer from rfl, idle]; decide)

/-- Before lock no program is followed (R16). -/
theorem State.cadenceSound.idle {s : State} (h : s.cadenceSound) (unlocked : s.tracker.state.isLocked = false) :
    s.sequencer.state.follows = false := by
  obtain ⟨⟨-, lock⟩, -⟩ := h
  by_contra follows
  rw [lock (by simpa using follows)] at unlocked
  cases unlocked

/-- The tracker cleared to SEEKING before lock (R9, R17). -/
theorem cleared_cadenceSound {s : State} (unlocked : s.tracker.state.isLocked = false) (on : s.tracker.state ≠ .off)
    (h : s.cadenceSound) : (s.setTracker (s.tracker.cleared .seeking)).cadenceSound := by
  refine setTracker_cadenceSound (.inr (h.idle unlocked)) ?_ h.1 h.2.2
  refine trackerSound_of_state (by simp [Tracker.cleared]) (Tracker.cleared_soundUnder _ _ (.inr rfl))
    (Tracker.cleared_historySound _ _ _) ?_
  simpa [Tracker.cleared] using h.2.1.enabled on

/-- A lock loss clears the tracker, and the sequencer follows no program after it (R16, R59). -/
theorem lockLoss_cadenceSound {c : LossCause} {s : State} (enable : s.config.trackerEnable = false ↔ c.stateAfter = .off)
    (commit : s.programs.commitPending = true → s.sequencer.state.follows = true) (sequencer : s.sequencerSound) :
    (lockLoss c s).cadenceSound := by
  obtain ⟨tracker, -⟩ := lockLoss_tracker c s
  obtain ⟨sequencerAfter, programs, -⟩ := lockLoss_raises c s
  obtain ⟨-, -, -, -, -, -, -, config, -⟩ := (lockLoss_cadence c s).fields
  have idle : (lockLoss c s).sequencer.state.follows = false := by
    rw [sequencerAfter, State.lossSequencer]
    split
    · rfl
    · rename_i idle
      simpa using idle
  have after : c.stateAfter = .off ∨ c.stateAfter = .seeking := by cases c <;> decide
  refine ⟨⟨fun pending => ?_, fun follows => ?_⟩, trackerSound_of_state ?_ ?_ ?_ ?_, ?_⟩
  · rw [programs, State.lossPrograms] at pending
    split at pending
    · cases pending
    · rename_i none
      exact absurd ⟨commit pending, pending⟩ none
  · rw [idle] at follows
    cases follows
  · rw [tracker]
    rcases after with e | e <;> simp [Tracker.cleared, e]
  · rw [tracker]
    exact Tracker.cleared_soundUnder _ _ after
  · rw [tracker]
    exact Tracker.cleared_historySound _ _ _
  · rw [tracker, config, enable]
    exact Iff.rfl
  · by_cases follows : s.sequencer.state.follows = true
    · have free : (lockLoss c s).sequencer.state = .free := by rw [sequencerAfter, State.lossSequencer, if_pos follows]
      refine (sequencerSound_free_iff free).mpr ⟨?_, ?_, ?_⟩
      · rw [config]
        exact sequencer.enabled fun st => by rw [st] at follows; cases follows
      · rw [sequencerAfter, State.lossSequencer, if_pos follows]
        exact ⟨rfl, rfl, rfl, rfl⟩
      · rw [freePresentation, config, sequencerAfter, State.lossSequencer, if_pos follows]
    · refine sequencer.idle (by simpa using follows) ?_ config
      rw [sequencerAfter, State.lossSequencer, if_neg follows]

/-- A lock loss whose cause leaves the tracker SEEKING (R13, R17). -/
theorem lockLoss_seeking_cadenceSound {c : LossCause} (seeking : c.stateAfter = .seeking) {s : State}
    (on : s.tracker.state ≠ .off) (h : s.cadenceSound) : (lockLoss c s).cadenceSound := by
  refine lockLoss_cadenceSound ?_ h.1.1 h.2.2
  simp [seeking, h.2.1.enabled on]

theorem Tracker.capture_length (t : Tracker) (d : Nat) : (t.capture d).history.length = min 16 (t.history.length + 1) := by
  simp [Tracker.capture]
  omega

/-- A captured span within the limits joins a sound history (R2). -/
theorem Tracker.capture_historySound {t : Tracker} {c : ConfigItems} {d : Nat} (h : t.historySound c)
    (span : c.spanMin ≤ d ∧ d ≤ c.spanMax) : (t.capture d).historySound c := by
  obtain ⟨count, spans⟩ := h
  refine ⟨by rw [Tracker.capture_length, Tracker.capture, count], fun x hx => ?_⟩
  rcases List.mem_cons.mp (List.mem_of_mem_take hx) with rfl | old
  · exact span
  · exact spans x old

/-- The bounds of the items that the tracker reads (R18). -/
theorem ConfigItems.trackerBounds {c : ConfigItems} (wf : c.wellFormed = true) :
    1 ≤ c.depth ∧ c.depth ≤ 16 ∧ 1000 ≤ c.spanMin ∧ c.spanMin ≤ c.spanMax ∧ c.spanMax ≤ 125000000 := by
  obtain ⟨-, -, depth, -, -, spans, -⟩ := c.wellFormed_iff.mp wf
  have range : 1 ≤ c.depth ∧ c.depth ≤ 16 := by
    simp only [List.mem_cons, List.not_mem_nil, or_false] at depth
    omega
  exact ⟨range.1, range.2, spans⟩

/-- In LOCKED and HOLDOVER the tracker has a history and a ref (R3). -/
theorem State.trackerSound.refSound {s : State} (h : s.trackerSound) (locked : s.tracker.state.isLocked = true) :
    s.tracker.refSound s.config := by
  obtain ⟨sound, -⟩ := h
  unfold Tracker.soundUnder at sound
  cases st : s.tracker.state <;> simp only [st, TrackerState.isLocked, Bool.false_eq_true] at sound locked
  · obtain ⟨-, -, refSound⟩ := sound
    exact refSound
  · obtain ⟨-, -, -, refSound⟩ := sound
    exact refSound

theorem TrackerState.ne_off_of_locked {st : TrackerState} (locked : st.isLocked = true) : st ≠ .off := fun e => by
  rw [e] at locked
  cases locked

/-- A tracker set to LOCKED with its ref and its window (R8, R11). -/
theorem locked_trackerSound {s : State} {t : Tracker} (state : t.state = .locked) (missing : t.missing = 0)
    (clear : t.synthesised = false) (ref : t.refSound s.config) (history : t.historySound s.config)
    (on : s.config.trackerEnable = true) : (s.setTracker t).trackerSound := by
  refine trackerSound_of_state (by simp [state]) ?_ history (by simp [state, on])
  unfold Tracker.soundUnder
  simp only [State.setTracker_fields, state]
  exact ⟨missing, clear, ref⟩

/-- Under lock the tracker moves, may raise a notice, and delivers the boundary (R8, R11, R12). -/
theorem lockedBoundary_cadenceSound {s v : State} {t : Tracker} (locked : t.state.isLocked = true)
    (sound : (s.setTracker t).trackerSound) (h : s.cadenceSound) (origin : Time) (ref : Nat)
    (moved : (s.setTracker t).cadenceSound → v.cadenceSound) (tracker : v.tracker = t) :
    (takeBoundary origin ref v).cadenceSound :=
  takeBoundary_cadenceSound origin ref (by rwa [tracker])
    (moved (setTracker_cadenceSound (.inl locked) sound h.1 h.2.2))

/-! ### Marks -/

section
variable {s : State} (wf : s.config.wellFormed = true) (h : s.cadenceSound)
include wf h

theorem firstMark_cadenceSound (seeking : s.tracker.state = .seeking) : (firstMark s.time s).cadenceSound := by
  obtain ⟨depth, -, low, high, -⟩ := ConfigItems.trackerBounds wf
  have on := h.2.1.enabled (by rw [seeking]; decide)
  obtain ⟨sound, history, -, -⟩ := h.2.1
  unfold Tracker.soundUnder at sound
  rw [seeking] at sound
  obtain ⟨-, none, ref, missing, -⟩ := sound
  have inTime : (s.time - s.time).toNat = 0 := by simp
  have moved : (s.setTracker { s.tracker with
      state := .acquiring, boundary := s.time, synthesised := false
      wait := some (.acquireTimeout (Time.plus s.time s.config.spanMax)) }).cadenceSound := by
    refine setTracker_cadenceSound (.inr (h.idle (by rw [seeking]; rfl)))
      ⟨⟨?_, ref, missing, rfl, rfl⟩, history, fun _ => ?_, by simp [on]⟩ h.1 h.2.2
    · simp only [State.setTracker_fields, none]
      exact depth
    · simp only [State.setTracker_fields, inTime]
      exact ⟨Nat.zero_le _, fun e => by omega⟩
  exact moved

/-- The tracker locks on the mean of its newest spans (R3, R8). -/
theorem acquireLock_cadenceSound {x : Tracker} (on : s.config.trackerEnable = true)
    (enough : s.config.depth ≤ x.history.length) (history : x.historySound s.config) (boundary : x.boundary = s.time) :
    (acquireLock s.time (countAccepted (s.setTracker x))).cadenceSound := by
  obtain ⟨depth, -⟩ := ConfigItems.trackerBounds wf
  obtain ⟨low, high⟩ := meanOfNewest_bounds depth enough history.2
  have locked : (s.setTracker { x with
      state := .locked, ref := some (meanOfNewest s.config.depth x.history), missing := 0, synthesised := false
      wait := windowWait s.time (meanOfNewest s.config.depth x.history) s.config.window }).trackerSound :=
    locked_trackerSound rfl rfl rfl ⟨enough, _, rfl, low, high, by rw [boundary]⟩ history on
  refine lockedBoundary_cadenceSound rfl locked h _ _ (fun k => (raiseNotice_same _ _ _).cadenceSound k) ?_
  simp [countAccepted]

theorem markAcquiring_cadenceSound (acquiring : s.tracker.state = .acquiring) : (markAcquiring s.time s).cadenceSound := by
  obtain ⟨-, few, low, high, bound⟩ := ConfigItems.trackerBounds wf
  have on := h.2.1.enabled (by rw [acquiring]; decide)
  obtain ⟨sound, history, inTime, -⟩ := h.2.1
  unfold Tracker.soundUnder at sound
  rw [acquiring] at sound
  obtain ⟨count, ref, missing, clear, wait⟩ := sound
  unfold markAcquiring
  simp only
  split
  · exact h
  · rename_i long
    have captured : ({ s.tracker.capture (Time.since s.time s.tracker.boundary) with boundary := s.time } : Tracker).historySound
        s.config := Tracker.capture_historySound history ⟨not_lt.mp long, (inTime acquiring).1⟩
    split
    · rename_i enough
      have same := captured.1
      exact acquireLock_cadenceSound wf h on (same ▸ enough) captured rfl
    · rename_i more
      have present : (s.time - s.time).toNat = 0 := by simp
      have moved : (s.setTracker { s.tracker.capture (Time.since s.time s.tracker.boundary) with
          boundary := s.time, wait := some (.acquireTimeout (Time.plus s.time s.config.spanMax)) }).cadenceSound := by
        refine setTracker_cadenceSound (.inr (h.idle (by rw [acquiring]; rfl)))
          ⟨?_, captured, fun _ => ?_, by simp [Tracker.capture, acquiring, on]⟩ h.1 h.2.2
        · have state : (s.tracker.capture (Time.since s.time s.tracker.boundary)).state = .acquiring := acquiring
          unfold Tracker.soundUnder
          simp only [State.setTracker_fields, state]
          exact ⟨not_le.mp more, ref, missing, clear, trivial⟩
        · simp only [State.setTracker_fields, present]
          exact ⟨Nat.zero_le _, fun e => by omega⟩
      exact moved

/-- The span of an accepted mark leaves a history and a ref as lock asks for them (R3, R11). -/
theorem examineSpan_sound (locked : s.tracker.state.isLocked = true) :
    (examineSpan s.time s).historySound s.config ∧ s.config.depth ≤ (examineSpan s.time s).history.length
      ∧ ∃ ref, (examineSpan s.time s).ref = some ref ∧ s.config.spanMin ≤ ref ∧ ref ≤ s.config.spanMax := by
  obtain ⟨depth, few, -⟩ := ConfigItems.trackerBounds wf
  obtain ⟨enough, ref, defined, low, high, -⟩ := h.2.1.refSound locked
  obtain ⟨-, history, -⟩ := h.2.1
  unfold examineSpan
  simp only
  split
  · rename_i taken
    simp only [Bool.and_eq_true, decide_eq_true_eq] at taken
    have captured := Tracker.capture_historySound history taken.2
    have more : s.config.depth ≤ (s.tracker.capture (Time.since s.time s.tracker.boundary)).history.length := by
      rw [Tracker.capture_length]
      omega
    exact ⟨captured, more, _, rfl, meanOfNewest_bounds depth more captured.2⟩
  · exact ⟨history, enough, ref, defined, low, high⟩

theorem acceptMark_cadenceSound (ref : Nat) (locked : s.tracker.state.isLocked = true) :
    (acceptMark s.time ref s).cadenceSound := by
  have on := h.2.1.enabled (TrackerState.ne_off_of_locked locked)
  obtain ⟨history, enough, newRef, defined, low, high⟩ := examineSpan_sound wf h locked
  have sound : (s.setTracker { examineSpan s.time s with
      state := .locked, boundary := s.time, synthesised := false, missing := 0
      wait := windowWait s.time ((examineSpan s.time s).ref.getD ref) s.config.window }).trackerSound :=
    locked_trackerSound rfl rfl rfl ⟨enough, newRef, defined, low, high, by rw [defined]; rfl⟩ history on
  unfold acceptMark
  simp only
  refine lockedBoundary_cadenceSound rfl sound h _ _ (fun k => ?_) ?_
  · split
    · exact (raiseNotice_same _ _ _).cadenceSound k
    · exact k
  · split <;> simp [countAccepted]

theorem markInWindow_cadenceSound (locked : s.tracker.state.isLocked = true) : (markInWindow s.time s).cadenceSound := by
  unfold markInWindow
  split
  · exact h
  · simp only
    split
    · exact h
    · split
      · exact h
      · exact acceptMark_cadenceSound wf h _ locked

theorem takeCycleMark_cadenceSound : (takeCycleMark s.time s).cadenceSound := by
  unfold takeCycleMark
  cases st : s.tracker.state with
  | off => exact h
  | seeking => exact firstMark_cadenceSound wf h st
  | acquiring => exact markAcquiring_cadenceSound wf h st
  | locked | holdover => exact markInWindow_cadenceSound wf h (by rw [st]; rfl)

theorem deliverMark_cadenceSound (kind : MarkKind) (p : Port) : (deliverMark kind p s).cadenceSound := by
  unfold deliverMark
  cases kind with
  | noMark => exact h
  | cycle =>
    simp only
    split
    · exact takeCycleMark_cadenceSound wf h
    · exact h
  | step =>
    simp only
    split
    · exact takeStepMark_cadenceSound s.time h
    · exact h

/-! ### The window close -/

omit wf in
/-- A missing mark is carried while holdover allows it (R12). -/
theorem carryCycle_cadenceSound {ref : Nat} (locked : s.tracker.state.isLocked = true) (defined : s.tracker.ref = some ref)
    (within : s.tracker.missing + 1 ≤ s.config.holdover) : (carryCycle ref s).cadenceSound := by
  have on := h.2.1.enabled (TrackerState.ne_off_of_locked locked)
  obtain ⟨enough, _, e, low, high, -⟩ := h.2.1.refSound locked
  obtain rfl := Option.some.inj (defined.symm.trans e)
  obtain ⟨-, history, -⟩ := h.2.1
  have sound : (s.setTracker { s.tracker with
      state := .holdover, boundary := Time.plus s.tracker.boundary ref, missing := s.tracker.missing + 1, synthesised := true
      wait := windowWait (Time.plus s.tracker.boundary ref) ref s.config.window }).trackerSound :=
    trackerSound_of_state (fun e => (nomatch e))
      ⟨Nat.le_add_left _ _, within, rfl, enough, ref, defined, low, high, rfl⟩ history (by simp [on])
  unfold carryCycle
  simp only
  refine lockedBoundary_cadenceSound rfl sound h _ _ (fun k => ?_) ?_
  · split
    · exact (raiseNotice_same _ _ _).cadenceSound k
    · exact k
  · split <;> simp

omit wf in
theorem windowCloseTaken_cadenceSound {ref : Nat} (locked : s.tracker.state.isLocked = true)
    (defined : s.tracker.ref = some ref) : (windowCloseTaken ref s).cadenceSound := by
  unfold windowCloseTaken
  simp only
  split
  · rename_i within
    exact carryCycle_cadenceSound (s := s.countTracker _) h locked defined within
  · exact lockLoss_seeking_cadenceSound (s := s.countTracker _) rfl (TrackerState.ne_off_of_locked locked) h

end

/-- Link down on the cadence port and RESET TRAFFIC (R17). -/
theorem trackerDisturbed_cadenceSound {c : LossCause} (seeking : c.stateAfter = .seeking) {s : State} (h : s.cadenceSound) :
    (trackerDisturbed c s).cadenceSound := by
  unfold trackerDisturbed
  cases st : s.tracker.state with
  | off | seeking => exact h
  | acquiring => exact cleared_cadenceSound (by rw [st]; rfl) (by rw [st]; decide) h
  | locked | holdover => exact lockLoss_seeking_cadenceSound seeking (by rw [st]; decide) h

/-! ### The enables and the free gate sets -/

/-- The tracker enable written on (R5). -/
theorem trackerEnabled_cadenceSound {s : State} (h : s.cadenceSound) :
    (trackerEnable (s.setConfig { s.config with trackerEnable := true })).cadenceSound := by
  obtain ⟨follows, ⟨sound, history, inTime, enable⟩, sequencer⟩ := h
  have stored (on : s.tracker.state ≠ .off) : (s.setConfig { s.config with trackerEnable := true }).cadenceSound :=
    ⟨follows, ⟨sound, history, inTime, by simp [on]⟩, sequencer⟩
  unfold trackerEnable
  simp only [State.setConfig_fields]
  cases st : s.tracker.state with
  | off =>
    have idle : s.sequencer.state.follows = false :=
      State.cadenceSound.idle ⟨follows, ⟨sound, history, inTime, enable⟩, sequencer⟩ (by rw [st]; rfl)
    exact setTracker_cadenceSound (s := s.setConfig { s.config with trackerEnable := true }) (.inr idle)
      (trackerSound_of_state (fun e => (nomatch e)) (Tracker.cleared_soundUnder _ _ (.inr rfl))
        (Tracker.cleared_historySound _ _ _) (by simp [Tracker.cleared])) follows sequencer
  | seeking | acquiring | locked | holdover => exact stored (by rw [st]; decide)

/-- The tracker enable written off (R6). -/
theorem trackerDisabled_cadenceSound {s : State} (h : s.cadenceSound) :
    (trackerDisable (s.setConfig { s.config with trackerEnable := false })).cadenceSound := by
  have cleared (unlocked : s.tracker.state.isLocked = false) :
      ((s.setConfig { s.config with trackerEnable := false }).setTracker (s.tracker.cleared .off)).cadenceSound :=
    setTracker_cadenceSound (s := s.setConfig { s.config with trackerEnable := false }) (.inr (h.idle unlocked))
      (trackerSound_of_state (fun e => (nomatch e)) (Tracker.cleared_soundUnder _ _ (.inl rfl))
        (Tracker.cleared_historySound _ _ _) (by simp [Tracker.cleared])) h.1 h.2.2
  have lost := lockLoss_cadenceSound (c := .disabled) (s := s.setConfig { s.config with trackerEnable := false })
    (iff_of_true rfl rfl) h.1.1 h.2.2
  unfold trackerDisable
  simp only [State.setConfig_fields]
  cases st : s.tracker.state with
  | off =>
    obtain ⟨follows, ⟨sound, history, inTime, -⟩, sequencer⟩ := h
    exact ⟨follows, ⟨sound, history, inTime, iff_of_true st rfl⟩, sequencer⟩
  | seeking | acquiring => exact cleared (by rw [st]; rfl)
  | locked | holdover => exact lost

/-- The sequencer enable written on (R42). -/
theorem sequencerEnabled_cadenceSound {s : State} (h : s.cadenceSound) :
    (sequencerEnable (s.setConfig { s.config with sequencerEnable := true })).cadenceSound := by
  obtain ⟨follows, tracker, sequencer⟩ := h
  have stored (on : s.sequencer.state ≠ .stopped) :
      (s.setConfig { s.config with sequencerEnable := true }).cadenceSound := by
    have same : s.setConfig { s.config with sequencerEnable := true } = s := by
      rw [← sequencer.enabled on]
      rfl
    rw [same]
    exact ⟨follows, tracker, sequencer⟩
  unfold sequencerEnable
  simp only [State.setConfig_fields]
  cases st : s.sequencer.state with
  | stopped =>
    obtain ⟨-, untimed, presents⟩ := (sequencerSound_stopped_iff st).mp sequencer
    obtain ⟨commit, -⟩ := follows
    rw [st] at commit
    exact ⟨⟨fun pending => (nomatch commit pending), fun f => (nomatch f)⟩, tracker,
      Iff.mpr (sequencerSound_free_iff rfl) ⟨rfl, untimed, presents⟩⟩
  | free | running | halted | rejoining => exact stored (by rw [st]; decide)

/-- The sequencer enable written off from a program followed: the walk is left, the free gate sets are presented, a pending commit is applied
(R42, R167). -/
theorem sequencerDisable_following {s : State} (follows : s.sequencer.state.follows = true) :
    sequencerDisable s = applyPendingCommit .stoppedEntry s.sequencer.cycle (presentBoth (freePresentation s)
      { leaveEntry s with sequencer := { (leaveEntry s).sequencer with state := .stopped } }) := by
  have config : (leaveEntry s).config = s.config := by simp
  have cycle : (leaveEntry s).sequencer.cycle = s.sequencer.cycle := by simp
  unfold sequencerDisable
  cases st : s.sequencer.state with
  | stopped | free =>
    rw [st] at follows
    cases follows
  | running | halted | rejoining => simp only [freePresentation, config, cycle]

/-- What the sequencer enable written off leaves of the sequencer and the programs (R42, R167). -/
theorem sequencerDisable_fields {s : State} (follows : s.sequencer.state.follows = true) :
    (sequencerDisable s).sequencer = { s.sequencer with
        state := .stopped, deadline := none, settle := none, stepSeen := false, pending := none
        presentation := freePresentation s }
      ∧ (sequencerDisable s).programs = s.programs.applied := by
  rw [sequencerDisable_following follows]
  simp

/-- The sequencer enable written off (R42). -/
theorem sequencerDisabled_cadenceSound {s : State} (h : s.cadenceSound) :
    (sequencerDisable (s.setConfig { s.config with sequencerEnable := false })).cadenceSound := by
  obtain ⟨⟨commit, lock⟩, tracker, sequencer⟩ := h
  have left (follows : s.sequencer.state.follows = true) :
      (sequencerDisable (s.setConfig { s.config with sequencerEnable := false })).cadenceSound := by
    obtain ⟨after, programs⟩ := sequencerDisable_fields
      (s := s.setConfig { s.config with sequencerEnable := false }) follows
    obtain ⟨time, -, -, -, -, -, -, same, -, config, -, handed, pending⟩ :=
      (sequencerDisable_walk (s.setConfig { s.config with sequencerEnable := false })).fields
    refine ⟨⟨fun pending => ?_, fun f => ?_⟩, ?_, (sequencerSound_stopped_iff (by rw [after])).mpr ⟨?_, ?_, ?_⟩⟩
    · rw [programs, ProgramStore.applied_commitPending] at pending
      cases pending
    · rw [after] at f
      cases f
    · unfold State.trackerSound State.acquiresInTime
      rw [same, config, time, handed, pending]
      exact tracker
    · rw [config]
      rfl
    · rw [after]
      exact ⟨rfl, rfl, rfl, rfl⟩
    · rw [after, freePresentation, freePresentation, config]
  cases st : s.sequencer.state with
  | stopped =>
    obtain ⟨off, -⟩ := (sequencerSound_stopped_iff st).mp sequencer
    have same : s.setConfig { s.config with sequencerEnable := false } = s := by
      rw [← off]
      rfl
    rw [same, show sequencerDisable s = s by simp [sequencerDisable, st]]
    exact ⟨⟨commit, lock⟩, tracker, sequencer⟩
  | free =>
    obtain ⟨-, untimed, presents⟩ := (sequencerSound_free_iff st).mp sequencer
    rw [st] at commit
    unfold sequencerDisable
    simp only [State.setConfig_fields, st]
    exact ⟨⟨fun pending => (nomatch commit pending), fun f => (nomatch f)⟩, tracker,
      Iff.mpr (sequencerSound_stopped_iff rfl) ⟨rfl, untimed, presents⟩⟩
  | running | halted | rejoining => exact left (by rw [st]; rfl)

/-- Where no program is followed a free gate set that is written is presented (R43). -/
theorem freeGatesWritten_idle {s : State} (idle : s.sequencer.state.follows = false) :
    freeGatesWritten s = presentBoth (freePresentation s) s := by
  unfold freeGatesWritten
  cases st : s.sequencer.state <;> simp [st, SequencerState.follows] at idle ⊢

/-- Where a program is followed a free gate set that is written is only stored (R43). -/
theorem freeGatesWritten_following {s : State} (follows : s.sequencer.state.follows = true) : freeGatesWritten s = s := by
  unfold freeGatesWritten
  cases st : s.sequencer.state <;> simp [st, SequencerState.follows] at follows ⊢

/-- The free gate sets are presented in STOPPED and FREE (R39). -/
theorem presentFree_cadenceSound {s : State} (idle : s.sequencer.state = .stopped ∨ s.sequencer.state = .free)
    (enable : s.sequencer.state = .stopped ↔ s.config.sequencerEnable = false) (untimed : s.sequencer.isUntimed)
    (follows : s.followsLock) (tracker : s.trackerSound) : (presentBoth (freePresentation s) s).cadenceSound := by
  obtain ⟨time, -, -, -, -, same, seq, programs, -, config, -, -, handed, pending⟩ := presentBoth_fields (freePresentation s) s
  refine ⟨?_, ?_, ?_, ?_⟩
  · unfold State.followsLock
    rw [seq, programs, same]
    exact follows
  · unfold State.trackerSound State.acquiresInTime
    rw [same, config, time, handed, pending]
    exact tracker
  · rw [seq, config]
    exact enable
  · unfold freePresentation at *
    rw [seq, config]
    rcases idle with st | st <;> simp only [st] <;> exact ⟨untimed, trivial⟩

/-- A free gate set is stored, and presented where no program is followed (R43). -/
theorem freeGatesWritten_cadenceSound {s : State} (g : Pair GateSet) (h : s.cadenceSound) :
    (freeGatesWritten (s.setConfig { s.config with freeGates := g })).cadenceSound := by
  obtain ⟨follows, tracker, sequencer⟩ := h
  have ⟨enable, _⟩ := sequencer
  cases st : s.sequencer.state with
  | stopped =>
    obtain ⟨-, untimed, -⟩ := (sequencerSound_stopped_iff st).mp sequencer
    rw [freeGatesWritten_idle (by simp [st, SequencerState.follows])]
    exact presentFree_cadenceSound (.inl st) enable untimed follows tracker
  | free =>
    obtain ⟨-, untimed, -⟩ := (sequencerSound_free_iff st).mp sequencer
    rw [freeGatesWritten_idle (by simp [st, SequencerState.follows])]
    exact presentFree_cadenceSound (.inr st) enable untimed follows tracker
  | running =>
    rw [freeGatesWritten_following (by simp [st, SequencerState.follows])]
    exact ⟨follows, tracker, Iff.mpr (sequencerSound_running_iff st) ((sequencerSound_running_iff st).mp sequencer)⟩
  | halted =>
    rw [freeGatesWritten_following (by simp [st, SequencerState.follows])]
    exact ⟨follows, tracker, Iff.mpr (sequencerSound_frozen_iff (.inl st)) ((sequencerSound_frozen_iff (.inl st)).mp sequencer)⟩
  | rejoining =>
    rw [freeGatesWritten_following (by simp [st, SequencerState.follows])]
    exact ⟨follows, tracker, Iff.mpr (sequencerSound_frozen_iff (.inr st)) ((sequencerSound_frozen_iff (.inr st)).mp sequencer)⟩

/-- A tracker item other than the enable is stored in OFF alone, where the tracker holds no history (R18). -/
theorem trackerItem_cadenceSound {s : State} {c : ConfigItems} {item : ConfigId} {value : List Byte}
    (stored : trackerItemWritten s.config item value = some c) (off : s.tracker.state = .off) (h : s.cadenceSound) :
    (s.setConfig c).cadenceSound := by
  have same : c.trackerEnable = s.config.trackerEnable ∧ c.sequencerEnable = s.config.sequencerEnable
      ∧ c.freeGates = s.config.freeGates := by
    cases item <;> simp only [trackerItemWritten, Option.map_eq_some_iff, Option.ite_none_right_eq_some,
      Option.some.injEq, reduceCtorEq] at stored <;> obtain ⟨_, _, rfl⟩ := stored <;> exact ⟨rfl, rfl, rfl⟩
  obtain ⟨trackerEnable, sequencerEnable, freeGates⟩ := same
  obtain ⟨follows, ⟨sound, -, -, enable⟩, sequencer⟩ := h
  unfold Tracker.soundUnder at sound
  rw [off] at sound
  refine ⟨follows, trackerSound_of_state (s := s.setConfig c) ?_ ?_ ⟨?_, ?_⟩ ?_, ?_⟩
  · simp [off]
  · unfold Tracker.soundUnder
    simp only [State.setConfig_fields, off]
    exact sound
  · simp only [State.setConfig_fields, sound.1, sound.2.1, List.length_nil]
  · simp [sound.1]
  · simpa [trackerEnable] using enable
  · unfold State.sequencerSound freePresentation at *
    simp only [State.setConfig_fields, sequencerEnable, freeGates]
    exact sequencer

/-! ### HALT, RESUME and the programs -/

/-- HALT freezes what RUNNING presents, without the guard limit (R56). -/
theorem sequencerHalt_cadenceSound {s : State} (running : s.sequencer.state = .running) (h : s.cadenceSound) :
    (sequencerHalt s).cadenceSound := by
  obtain ⟨⟨commit, lock⟩, tracker, sequencer⟩ := h
  obtain ⟨enable, -, presents⟩ := (sequencerSound_running_iff running).mp sequencer
  obtain ⟨time, -, -, -, -, -, -, same, -, config, -, handed, pending⟩ := (sequencerHalt_walk s).fields
  have halted : (sequencerHalt s).sequencer = { s.sequencer with
        state := .halted, deadline := none, settle := none, stepSeen := false, pending := none
        presentation := ⟨⟨s.sequencer.presentation.a.gates, none⟩, ⟨s.sequencer.presentation.b.gates, none⟩⟩ }
      ∧ (sequencerHalt s).programs = s.programs := by
    simp [sequencerHalt]
  obtain ⟨after, programs⟩ := halted
  refine ⟨⟨fun _ => by rw [after]; rfl, fun _ => ?_⟩, ?_, (sequencerSound_frozen_iff (.inl (by rw [after]))).mpr ⟨?_, ?_, ?_⟩⟩
  · rw [same]
    exact lock (by rw [running]; rfl)
  · unfold State.trackerSound State.acquiresInTime
    rw [same, config, time, handed, pending]
    exact tracker
  · rwa [config]
  · rw [after]
    exact ⟨rfl, rfl, rfl, rfl⟩
  · rw [State.currentEntry, after, programs, presents]
    rfl

theorem sequencerResume_cadenceSound {s : State} (halted : s.sequencer.state = .halted) (h : s.cadenceSound) :
    ({ s with sequencer := { s.sequencer with state := .rejoining } } : State).cadenceSound := by
  obtain ⟨⟨commit, lock⟩, tracker, sequencer⟩ := h
  have frozen := (sequencerSound_frozen_iff (.inl halted)).mp sequencer
  exact ⟨⟨fun _ => rfl, fun _ => lock (by rw [halted]; rfl)⟩, tracker,
    Iff.mpr (sequencerSound_frozen_iff (.inr rfl)) frozen⟩

/-- A write of the staged bank leaves what the sequencer reads alone (R24). -/
theorem setStaged_cadenceSound {s : State} (b : Bank) (h : s.cadenceSound) :
    ({ s with programs := s.programs.setStaged b } : State).cadenceSound := by
  obtain ⟨⟨commit, lock⟩, tracker, sequencer⟩ := h
  refine ⟨⟨fun pending => commit (by simpa using pending), lock⟩, tracker, ?_⟩
  unfold State.sequencerSound State.walkTimed runningPresentation State.currentEntry at *
  simp only [ProgramStore.activeBank_setStaged]
  exact sequencer

/-- The pending-commit record is set while a program is followed, or cleared (R164, R169). -/
theorem setPending_cadenceSound {s : State} {b : Bool} (hb : b = true → s.sequencer.state.follows = true) (h : s.cadenceSound) :
    ({ s with programs := { s.programs with commitPending := b } } : State).cadenceSound := by
  obtain ⟨⟨-, lock⟩, tracker, sequencer⟩ := h
  exact ⟨⟨hb, lock⟩, tracker, sequencer⟩

/-- The swap of a commit where no program is followed (R163). -/
theorem swapBanks_cadenceSound {s : State} (idle : s.sequencer.state.follows = false) (o : Occasion) (c : Count)
    (h : s.cadenceSound) : (swapBanks o c s).cadenceSound := by
  obtain ⟨⟨-, lock⟩, tracker, sequencer⟩ := h
  have swapped : ({ s with
      programs := { s.programs with active := s.programs.staged, commitPending := false } } : State).cadenceSound :=
    ⟨⟨fun p => (nomatch p), lock⟩, tracker, sequencer.idle idle rfl rfl⟩
  exact (raiseNotice_same _ _ _).cadenceSound swapped

end Sys2Proof.Machine
end

section
/-! PROOF. Every step keeps the cadence (section 1.2, R16, R35, R39, R42, R47, R51): the owner's requests, the events, and the passing of time. -/

namespace Sys2Proof.Machine

/-- No acquire timeout is overdue (R9). -/
theorem State.cadenceSound.inTime {s : State} (h : s.cadenceSound) : s.acquiresInTime := by
  obtain ⟨-, ⟨-, -, inTime, -⟩, -⟩ := h
  exact inTime

/-! ### Requests -/

/-- A property that holds of every state is kept by every move. -/
theorem runKeeps_true : RunKeeps fun _ => True where
  hold _ _ _ h := h
  start _ _ _ _ _ _ _ _ h := h
  store _ _ _ _ _ _ _ _ h := h
  join _ _ _ _ h := h
  flag _ _ _ _ h := h
  abort _ _ _ _ h := h
  queue _ _ _ h := h
  linkDown _ _ h := h

/-- A request that keeps the property, and is made of the primitive moves, may be an owner's: it leaves the session open. -/
theorem RequestKeeps.toOwned {P : State → Prop} {row : Instr} {run : Request → State → Verdict} (h : RequestKeeps P row run)
    (moves : ∀ {Q : State → Prop}, RunKeeps Q → RequestKeeps Q row run) : OwnedKeeps P row run := by
  intro slot hr s o hs
  obtain ⟨-, opened⟩ := moves runKeeps_true.opened slot hr s ⟨trivial, o⟩
  exact Verdict.keeps_of_state ⟨h slot hr s hs, opened⟩

theorem State.sameButTraffic.cadenceSound {s t : State} (k : s.sameButTraffic t) (h : s.cadenceSound) : t.cadenceSound :=
  k.toNotices.cadenceSound h

theorem sampleLink_cadenceSound (p : Port) {s : State} (h : s.cadenceSound) : (sampleLink p s).cadenceSound := by
  unfold sampleLink
  split
  · exact (linkUpEvent_same p s).cadenceSound h
  · exact h

/-- After reset the tracker is OFF and the sequencer STOPPED (R1, R38). -/
theorem powerOn_cadenceSound (straps : Straps) (b : Bool) (phy : Pair Link) (n : Nat) (is : List Instr) :
    (State.powerOn straps b phy n is).cadenceSound := by
  refine ⟨⟨fun f => (nomatch f), fun f => (nomatch f)⟩, ⟨⟨rfl, rfl, rfl, rfl, rfl, rfl⟩, ⟨rfl, fun _ f => (nomatch f)⟩,
    fun f => (nomatch f), iff_of_true rfl rfl⟩, iff_of_true rfl rfl, ⟨rfl, rfl, rfl, rfl⟩, rfl⟩

theorem released_cadenceSound (straps : Straps) (phy : Pair Link) (n : Nat) (is : List Instr) :
    (sampleLinks (State.powerOn straps true phy n is)).cadenceSound :=
  sampleLink_cadenceSound .b (sampleLink_cadenceSound .a (powerOn_cadenceSound straps true phy n is))

/-- The request path itself does not reach the cadence. -/
theorem cadenceSound_serves : ServeKeeps State.cadenceSound where
  hold _ _ _ h := State.sameButTraffic.cadenceSound (holdHead_same _ _ _) h
  start _ _ _ _ _ _ _ _ h := h
  store _ _ _ _ _ _ _ _ h := h
  join _ _ _ _ h := h

theorem cadenceSound_trackerEnables :
    RequestKeeps State.cadenceSound .trackerEnableOn (writeConfigWith fun _ _ s => runTrackerEnableOn s)
      ∧ RequestKeeps State.cadenceSound .trackerEnableOff (writeConfigWith fun _ _ s => runTrackerEnableOff s) :=
  ⟨.writeConfigWith (by decide) fun _ _ _ _ _ h => trackerEnabled_cadenceSound h,
    .writeConfigWith (by decide) fun _ _ _ _ _ h => trackerDisabled_cadenceSound h⟩

theorem cadenceSound_sequencerEnables :
    RequestKeeps State.cadenceSound .sequencerEnableOn (writeConfigWith fun _ _ s => runSequencerEnableOn s)
      ∧ RequestKeeps State.cadenceSound .sequencerEnableOff (writeConfigWith fun _ _ s => runSequencerEnableOff s) :=
  ⟨.writeConfigWith (by decide) fun _ _ _ _ _ h => sequencerEnabled_cadenceSound h,
    .writeConfigWith (by decide) fun _ _ _ _ _ h => sequencerDisabled_cadenceSound h⟩

theorem cadenceSound_trackerItem : RequestKeeps State.cadenceSound .writeTrackerItem (writeConfigWith runWriteTrackerItem) := by
  refine .writeConfigWith (by decide) fun item value _ _ s h => ?_
  unfold runWriteTrackerItem
  split
  · exact h
  · rename_i off
    split
    · rename_i c stored
      exact trackerItem_cadenceSound stored (not_not.mp off) h
    · exact h

theorem cadenceSound_freeGateSet : RequestKeeps State.cadenceSound .writeFreeGateSet (writeConfigWith runWriteFreeGateSet) := by
  refine .writeConfigWith (by decide) fun item value _ _ s h => ?_
  unfold runWriteFreeGateSet
  split
  · exact freeGatesWritten_cadenceSound _ h
  · exact h

/-- The items that neither the tracker nor the sequencer reads. -/
theorem cadenceSound_items :
    RequestKeeps State.cadenceSound .writeSyncOutEnable (writeConfigWith fun _ value s => runWriteSyncOutEnable value s)
      ∧ RequestKeeps State.cadenceSound .writeStationAddress (writeConfigWith fun _ value s => runWriteStationAddress value s)
      ∧ RequestKeeps State.cadenceSound .writeManagementType (writeConfigWith fun _ value s => runWriteManagementType value s)
      ∧ RequestKeeps State.cadenceSound .writeDefaultAction (writeConfigWith fun _ value s => runWriteDefaultAction value s)
      ∧ RequestKeeps State.cadenceSound .writeQuota (writeConfigWith runWriteQuota)
      ∧ RequestKeeps State.cadenceSound .writeNoticeEnableSet
          (writeConfigWith fun _ value s => runWriteNoticeEnableSet value s) := by
  refine ⟨.writeConfigWith (by decide) fun item value _ _ s h => ?_, .writeConfigWith (by decide) fun item value _ _ s h => ?_,
    .writeConfigWith (by decide) fun item value _ _ s h => ?_, .writeConfigWith (by decide) fun item value _ _ s h => ?_,
    .writeConfigWith (by decide) fun item value _ _ s h => ?_, .writeConfigWith (by decide) fun item value _ _ s h => ?_⟩
  · unfold runWriteSyncOutEnable
    split <;> exact h
  · unfold runWriteStationAddress
    split <;> exact h
  · unfold runWriteManagementType
    split <;> exact h
  · unfold runWriteDefaultAction
    split <;> exact h
  · unfold runWriteQuota
    split
    · split <;> exact h
    · exact h
  · unfold runWriteNoticeEnableSet
    split <;> exact h

theorem cadenceSound_writeMatch : RequestKeeps State.cadenceSound .writeMatch runWriteMatch :=
  .writeEntries _ _ _ fun _ _ _ _ _ _ h => h

theorem cadenceSound_writeProgram : RequestKeeps State.cadenceSound .writeProgram (unlessLocked runWriteProgram) :=
  .unlessLocked (.writeEntries _ _ _ fun _ _ _ _ _ _ h =>
    ⟨setStaged_cadenceSound _ h.1, (ProgramStore.commitPending_setStaged _ _).trans h.2⟩)

theorem cadenceSound_writeProgramHeader :
    RequestKeeps State.cadenceSound .writeProgramHeader (unlessLocked (withArguments 5 runWriteProgramHeader)) :=
  .unlessLocked (.withArguments 5 fun _ _ _ h =>
    ⟨setStaged_cadenceSound _ h.1, (ProgramStore.commitPending_setStaged _ _).trans h.2⟩)

theorem cadenceSound_commit : RequestKeeps State.cadenceSound .commit (withoutArguments runCommit) := by
  refine .withoutArguments fun slot _ s h => ?_
  unfold runCommit commitBank
  simp only
  split
  · exact h
  · split
    · exact h
    · split
      · rename_i follows
        exact setPending_cadenceSound (fun _ => follows) h
      · rename_i idle
        exact swapBanks_cadenceSound (by simpa using idle) .immediate _ h

theorem cadenceSound_cancelCommit : RequestKeeps State.cadenceSound .cancelCommit (withoutArguments runCancelCommit) := by
  refine .withoutArguments fun slot _ s h => ?_
  unfold runCancelCommit
  split
  · exact (raiseNotice_same _ _ _).cadenceSound (setPending_cadenceSound (fun f => (nomatch f)) h)
  · exact h

theorem cadenceSound_halt : RequestKeeps State.cadenceSound .halt (withoutArguments runHalt) := by
  refine .withoutArguments fun slot _ s h => ?_
  unfold runHalt
  split
  · rename_i running
    exact sequencerHalt_cadenceSound running h
  · exact h

theorem cadenceSound_resume : RequestKeeps State.cadenceSound .resume (withoutArguments runResume) := by
  refine .withoutArguments fun slot _ s h => ?_
  unfold runResume
  split
  · rename_i halted
    exact sequencerResume_cadenceSound halted h
  · exact h

theorem cadenceSound_readCountersClear :
    RequestKeeps State.cadenceSound .readCountersClear (withArguments 1 runReadCountersClear) := by
  refine .withArguments 1 fun slot _ s h => ?_
  unfold runReadCountersClear
  simp only
  split <;> exact h

theorem trafficReset_cadenceSound {s : State} (h : s.cadenceSound) : (trafficReset s).cadenceSound := by
  have aborted := (trafficAbort_same .b _).1.cadenceSound ((trafficAbort_same .a s).1.cadenceSound h)
  have flushed := (flushPort_same .b _).cadenceSound ((flushPort_same .a _).cadenceSound aborted)
  unfold trafficReset
  simp only
  split
  · exact trackerDisturbed_cadenceSound rfl flushed
  · exact flushed

theorem cadenceSound_resetTraffic : RequestKeeps State.cadenceSound .resetTraffic (withArguments 1 runResetTraffic) := by
  refine .withArguments 1 fun slot _ s h => ?_
  unfold runResetTraffic
  split
  · exact answered (trafficReset_cadenceSound h)
  · exact h

theorem cadenceSound_resetFull : OwnedKeeps State.cadenceSound .resetFull runResetFull :=
  fun _ _ _ _ _ => released_cadenceSound _ _ _ _

theorem cadenceSound_closeSession : RequestKeeps State.cadenceSound .closeSession (withoutArguments runCloseSession) :=
  .withoutArguments (.ofReads fun _ _ => rfl)

theorem cadenceSound_openSession : RequestKeeps State.cadenceSound .openSession (withArguments 4 runOpenSession) := by
  refine .withArguments 4 fun slot _ s h => ?_
  unfold runOpenSession
  simp only
  split
  · exact h
  · split
    · exact h
    · split <;> exact h

theorem cadenceSound_renew : OwnedKeeps State.cadenceSound .renew (withArguments 4 runRenew) := by
  intro slot hr s o h
  have opened := runKeeps_true.renew slot hr s o trivial
  unfold withArguments runRenew at *
  simp only at *
  split
  · split
    · exact ⟨h, o⟩
    · exact ⟨(offerAllNotices_same _).cadenceSound h, by simp_all [Verdict.keeps]⟩
  · exact ⟨h, o⟩

/-! ### Events -/

theorem linkDownEvent_cadenceSound (p : Port) {s : State} (h : s.cadenceSound) : (linkDownEvent p s).cadenceSound := by
  have discarded : (discardInFlight p (releaseReceiver p (s.setLink p .down))).cadenceSound :=
    (discardInFlight_same p _).cadenceSound h
  have flushed := (flushPort_same p _).cadenceSound discarded
  unfold linkDownEvent
  refine (raiseNotice_same _ _ _).cadenceSound ?_
  split
  · exact trackerDisturbed_cadenceSound rfl flushed
  · exact flushed

theorem completeTransmission_cadenceSound (p : Port) (f : InFlight) {s : State} (h : s.cadenceSound) :
    (completeTransmission p f s).cadenceSound := by
  unfold completeTransmission
  refine (evaluate_same p _).cadenceSound ?_
  split
  · exact (offerAllNotices_same _).cadenceSound h
  · exact h

theorem classifyOrdinary_cadenceSound (p : Port) (bytes : List Byte) {s : State} (wf : s.config.wellFormed = true)
    (h : s.cadenceSound) : (classifyOrdinary p bytes s).cadenceSound := by
  have marked (c : Classifier) (kind : MarkKind) : (deliverMark kind p { s with classifier := c }).cadenceSound :=
    deliverMark_cadenceSound (s := { s with classifier := c }) wf h kind p
  have taken : (deliverMark (selectAction p (frameFields bytes) s).1.mark p
      (selectAction p (frameFields bytes) s).2).cadenceSound := by
    unfold selectAction
    split
    · exact marked _ _
    · exact marked s.classifier _
  unfold classifyOrdinary
  simp only
  split
  · exact (offerForwarded_same _ _ _ _).cadenceSound taken
  · exact taken

theorem judgeFrame_cadenceSound (p : Port) {s : State} (wf : s.config.wellFormed = true) (h : s.cadenceSound) :
    (judgeFrame p s).cadenceSound := by
  unfold judgeFrame classify
  simp only
  split
  · exact h
  · split
    · exact h
    · split
      · exact h
      · split
        · unfold pushRequest
          split <;> exact h
        · exact classifyOrdinary_cadenceSound (s := s.countPort p _) p _ wf h

/-! ### Commands -/

/-- Every command but the acquire timeout keeps the cadence whatever stands in the queue. -/
theorem exec_cadenceSound (i : Instr) {s : State} (wf : s.config.wellFormed = true) (other : i ≠ .acquireTimeout)
    (h : s.cadenceSound) : keepsIn State.cadenceSound (exec i s) := by
  have k := cadenceSound_serves
  obtain ⟨trackerOn, trackerOff⟩ := cadenceSound_trackerEnables
  obtain ⟨sequencerOn, sequencerOff⟩ := cadenceSound_sequencerEnables
  obtain ⟨syncOut, address, type, action, quota, notices⟩ := cadenceSound_items
  have reads {row : Instr} {run : Request → State → Verdict} (hr : ∀ r s, (run r s).state = s) :
      RequestKeeps State.cadenceSound row run := .ofReads hr
  cases i with
  | resetNAssert => exact keepsIn_next (powerOn_cadenceSound _ _ _ _ _)
  | resetNRelease straps =>
    refine keepsIn_next ?_
    split
    · exact released_cadenceSound straps _ _ _
    · exact h
  | linkUp p =>
    refine keepsIn_outsideReset (s := s.setPhy p .up) h ?_
    split
    · exact h
    · exact (linkUpEvent_same p _).cadenceSound h
  | linkDown p =>
    refine keepsIn_outsideReset (s := s.setPhy p .down) h ?_
    split
    · exact h
    · exact linkDownEvent_cadenceSound (s := s.setPhy p .down) p h
  | receptionStart p =>
    refine keepsIn_outsideReset h ?_
    split <;> exact h
  | receptionCompletion p frame receiveError =>
    refine keepsIn_outsideReset h ?_
    split
    · have judged := judgeFrame_cadenceSound (s := stageBytes p frame receiveError s) p wf h
      exact judged
    · exact h
  | transmissionCompletion p =>
    refine keepsIn_outsideReset h ?_
    split
    · split
      · exact completeTransmission_cadenceSound p _ h
      · exact h
    · exact h
  | acquireTimeout => exact absurd rfl other
  | windowClose =>
    refine keepsIn_outsideReset h ?_
    split
    · rename_i locked
      split
      · rename_i ref defined
        exact windowCloseTaken_cadenceSound h locked.1 defined
      · exact h
    · exact h
  | entryDeadline =>
    refine keepsIn_outsideReset h ?_
    split
    · rename_i due
      exact entryDeadlineTaken_cadenceSound due.1 h
    · exact h
  | settleDue =>
    refine keepsIn_outsideReset h ?_
    split
    · rename_i due
      exact settleTaken_cadenceSound due.1 h
    · exact h
  | syncOutPulseEnd =>
    refine keepsIn_outsideReset h ?_
    split <;> exact h
  | leaseExpiry =>
    refine keepsIn_outsideReset h ?_
    split <;> exact h
  | shortFrameDropped => exact keepsIn_next (k.toAgentKeeps.takeRequest _ _ s (fun _ _ t ht => ht) h)
  | badCode => exact k.takeOpen (reads fun _ _ => rfl) s h
  | identify => exact k.takeOpen (reads fun _ _ => rfl).withoutArguments s h
  | readStatus => exact k.takeOpen (reads fun _ _ => rfl).withoutArguments s h
  | readConfig => exact k.takeOpen ((reads runReadConfig_state).withArguments 1) s h
  | readMatch => exact k.takeOpen ((reads runReadMatch_state).withArguments 2) s h
  | readProgram => exact k.takeOpen ((reads runReadProgram_state).withArguments 3) s h
  | readCounters => exact k.takeOpen ((reads runReadCounters_state).withArguments 1) s h
  | openSession => exact k.takeOpen cadenceSound_openSession s h
  | writeConfig => exact k.takeOwned (RequestKeeps.writeConfig.toOwned fun _ => .writeConfig) s h
  | trackerEnableOn => exact k.takeOwned (trackerOn.toOwned fun q => q.trackerEnableOn) s h
  | trackerEnableOff => exact k.takeOwned (trackerOff.toOwned fun q => q.trackerEnableOff) s h
  | writeTrackerItem => exact k.takeOwned (cadenceSound_trackerItem.toOwned fun q => q.writeTrackerItem) s h
  | sequencerEnableOn => exact k.takeOwned (sequencerOn.toOwned fun q => q.sequencerEnableOn) s h
  | sequencerEnableOff => exact k.takeOwned (sequencerOff.toOwned fun q => q.sequencerEnableOff) s h
  | writeFreeGateSet => exact k.takeOwned (cadenceSound_freeGateSet.toOwned fun q => q.writeFreeGateSet) s h
  | writeSyncOutEnable => exact k.takeOwned (syncOut.toOwned fun q => q.writeSyncOutEnable) s h
  | writeStationAddress => exact k.takeOwned (address.toOwned fun q => q.writeStationAddress) s h
  | writeManagementType => exact k.takeOwned (type.toOwned fun q => q.writeManagementType) s h
  | writeDefaultAction => exact k.takeOwned (action.toOwned fun q => q.writeDefaultAction) s h
  | writeQuota => exact k.takeOwned (quota.toOwned fun q => q.writeQuota) s h
  | writeNoticeEnableSet => exact k.takeOwned (notices.toOwned fun q => q.writeNoticeEnableSet) s h
  | resetTraffic => exact k.takeOwned (cadenceSound_resetTraffic.toOwned fun q => q.resetTraffic) s h
  | resetFull => exact k.takeOwned cadenceSound_resetFull s h
  | writeMatch => exact k.takeOwned (cadenceSound_writeMatch.toOwned fun q => q.writeMatch) s h
  | writeProgram => exact k.takeOwned (cadenceSound_writeProgram.toOwned fun q => q.writeProgram) s h
  | writeProgramHeader => exact k.takeOwned (cadenceSound_writeProgramHeader.toOwned fun q => q.writeProgramHeader) s h
  | commit => exact k.takeOwned (cadenceSound_commit.toOwned fun q => q.commit) s h
  | cancelCommit => exact k.takeOwned (cadenceSound_cancelCommit.toOwned fun q => q.cancelCommit) s h
  | halt => exact k.takeOwned (cadenceSound_halt.toOwned fun q => q.halt) s h
  | resume => exact k.takeOwned (cadenceSound_resume.toOwned fun q => q.resume) s h
  | readCountersClear => exact k.takeOwned (cadenceSound_readCountersClear.toOwned fun q => q.readCountersClear) s h
  | renew => exact k.takeOwned cadenceSound_renew s h
  | closeSession => exact k.takeOwned (cadenceSound_closeSession.toOwned fun _ => .withoutArguments (.ofReads fun _ _ => rfl)) s h

/-! ### The acquire timeout and the passing of time -/

/-- The cadence depends on time, the events handed out and the queue of commands by the acquire timeout alone. -/
theorem cadenceSound_timed {s : State} (h : s.cadenceSound) {time : Time} {k : Nat} {handed pending : List Instr}
    (inTime : ({ s with time := time, tieCount := k, handed := handed, pending := pending } : State).acquiresInTime) :
    ({ s with time := time, tieCount := k, handed := handed, pending := pending } : State).cadenceSound := by
  obtain ⟨follows, ⟨sound, history, -, enable⟩, sequencer⟩ := h
  exact ⟨follows, ⟨sound, history, inTime, enable⟩, sequencer⟩

/-- In ACQUIRING the acquire timeout is due when SPAN_MAX has passed since B (R8, R9). -/
theorem acquireTimeout_due_iff {s : State} (wf : s.config.wellFormed = true) (h : s.cadenceSound)
    (acquiring : s.tracker.state = .acquiring) :
    s.tracker.wait = some (.acquireTimeout s.time) ↔ (s.time - s.tracker.boundary).toNat = s.config.spanMax := by
  obtain ⟨-, -, -, -, max⟩ := ConfigItems.trackerBounds wf
  obtain ⟨-, ⟨sound, -⟩, -⟩ := h
  unfold Tracker.soundUnder at sound
  rw [acquiring] at sound
  obtain ⟨-, -, -, -, wait⟩ := sound
  rw [wait, ← Time.plus_eq_iff (by omega)]
  simp only [Option.some.injEq, TrackerWait.acquireTimeout.injEq]
  exact eq_comm

/-- ACQUIRE_TIMEOUT keeps the cadence: taken when it is due, it leaves ACQUIRING; else SPAN_MAX has not passed (R9). -/
theorem acquireTimeout_cadenceSound {s : State} {rest : List Instr} (wf : s.config.wellFormed = true) (reset : s.resetHeld)
    (h : s.cadenceSound) : keepsIn State.cadenceSound (execAcquireTimeout { s with pending := rest }) := by
  have untimed (early : s.tracker.state = .acquiring → (s.time - s.tracker.boundary).toNat ≠ s.config.spanMax) :
      ({ s with pending := rest } : State).cadenceSound :=
    cadenceSound_timed h fun acquiring => ⟨(h.inTime acquiring).1, fun e => absurd e (early acquiring)⟩
  refine keepsIn_next ?_
  unfold outsideReset
  split
  · rename_i low
    refine untimed fun acquiring => ?_
    rw [reset low] at acquiring
    cases acquiring
  · simp only
    split
    · rename_i due
      obtain ⟨acquiring, -⟩ := due
      have cleared := cleared_cadenceSound (by rw [acquiring]; rfl) (by rw [acquiring]; decide) h
      have moved : ({ s.setTracker (s.tracker.cleared .seeking) with pending := rest } : State).cadenceSound :=
        cadenceSound_timed cleared fun f => (nomatch f)
      exact moved
    · rename_i early
      exact untimed fun acquiring e => early ⟨acquiring, (acquireTimeout_due_iff wf h acquiring).mpr e⟩

/-- A move on the empty queue keeps the cadence: part time does not pass a due acquire timeout (R9, R93). -/
theorem tick_cadenceSound {s : State} (wf : s.config.wellFormed = true) (idle : s.pending = []) (h : s.cadenceSound) :
    (tick s).cadenceSound := by
  obtain ⟨-, -, -, -, max⟩ := ConfigItems.trackerBounds wf
  rcases tick_cases s with ⟨_, e⟩ | ⟨_, _, _, e⟩ | ⟨_, none, e⟩ | ⟨_, x, n, new, e⟩ <;> rw [e]
  · exact h
  · exact h
  · refine cadenceSound_timed (s := { s with agent := { s.agent with serviced := false } }) (k := s.tieCount)
      (pending := s.pending) h fun acquiring => ?_
    obtain ⟨within, untaken⟩ := h.inTime acquiring
    have early : (s.time - s.tracker.boundary).toNat ≠ s.config.spanMax := fun full => by
      have due := (acquireTimeout_due_iff wf h acquiring).mpr full
      have fresh : Instr.acquireTimeout ∈ openEvents s := (mem_openEvents s _).mpr
        ⟨(mem_dueEvents s _).mpr (.inl ⟨rfl, due⟩), (untaken full).resolve_right (by rw [idle]; exact List.not_mem_nil)⟩
      rw [none] at fresh
      cases fresh
    have passed : (s.time + 1 - s.tracker.boundary).toNat = (s.time - s.tracker.boundary).toNat + 1 :=
      Time.since_succ (by omega)
    refine ⟨?_, fun _ => .inl List.not_mem_nil⟩
    change (s.time + 1 - s.tracker.boundary).toNat ≤ s.config.spanMax
    omega
  · refine cadenceSound_timed (time := s.time) h fun acquiring => ?_
    obtain ⟨within, untaken⟩ := h.inTime acquiring
    refine ⟨within, fun full => ?_⟩
    have fresh := (untaken full).resolve_right (by rw [idle]; exact List.not_mem_nil)
    by_cases this : x = .acquireTimeout
    · exact .inr (by simp [this])
    · exact .inl (by simp [fresh, Ne.symm this])

/-- Settles O57: each move of the tracker, the sequencer and the programs keeps their agreement, and time does not pass a due timeout. -/
theorem stepKeepsCadence : Obligations.StepKeepsCadence := by
  intro s t items reset follows tracker sequencer e
  have h : s.cadenceSound := ⟨follows, tracker, sequencer⟩
  obtain ⟨wf, -⟩ := items
  unfold step at e
  split at e
  · rename_i idle
    cases e
    exact tick_cadenceSound wf idle h
  · rename_i c rest queued
    by_cases timeout : c = .acquireTimeout
    · subst timeout
      exact acquireTimeout_cadenceSound wf reset h t e
    · have shorter : ({ s with pending := rest } : State).cadenceSound :=
        cadenceSound_timed (time := s.time) (k := s.tieCount) (handed := s.handed) h fun acquiring => by
          obtain ⟨within, untaken⟩ := h.inTime acquiring
          refine ⟨within, fun full => (untaken full).imp id fun mem => ?_⟩
          rw [queued] at mem
          exact (List.mem_cons.mp mem).resolve_left (Ne.symm timeout)
      exact exec_cadenceSound (s := { s with pending := rest }) c wf timeout shorter t e

end Sys2Proof.Machine
end

section
/-! PROOF. Steps and resets (R82, R87, R88, R92 to R95, R132, R147): what a move on the empty queue does, what is held in reset, and the state that
each reset leaves. -/

namespace Sys2Proof.Machine

/-! ### Steps and time -/

/-- Settles O1, as the definition of a step says. -/
theorem stepRunsFrontCommand : Obligations.StepRunsFrontCommand := fun _ _ _ => rfl

/-- A due event of the part time is an expiry or a request's, and those of a kind are due by that kind's wait alone. -/
theorem mem_dueEvents_expiry {s : State} {e : Instr} (expiry : e ∈ ([.acquireTimeout, .windowClose, .entryDeadline, .settleDue,
    .syncOutPulseEnd, .transmissionCompletion .a, .transmissionCompletion .b, .leaseExpiry] : List Instr)) :
    e ∈ dueEvents s ↔
      (e = .acquireTimeout ∧ s.tracker.wait = some (.acquireTimeout s.time))
        ∨ (e = .windowClose ∧ s.tracker.wait = some (.windowClose s.time))
        ∨ (e = .entryDeadline ∧ s.sequencer.deadline = some s.time)
        ∨ (e = .settleDue ∧ s.sequencer.settle = some s.time)
        ∨ (e = .syncOutPulseEnd ∧ s.sequencer.pulseEnd = some s.time)
        ∨ (e = .transmissionCompletion .a ∧ ∃ f, (s.sched .a).inFlight = some f ∧ f.due = s.time)
        ∨ (e = .transmissionCompletion .b ∧ ∃ f, (s.sched .b).inFlight = some f ∧ f.due = s.time)
        ∨ (e = .leaseExpiry ∧ s.agent.session.leaseWait = some s.time) := by
  have noRow : ¬ ∃ slot rest, s.agent.fifo = slot :: rest ∧ e = slotRow slot ∧ serviceOpen s = true := by
    rintro ⟨slot, rest, -, row, -⟩
    exact slotRow_not_expiry slot e expiry row.symm
  simp only [mem_dueEvents, noRow, or_false]

/-- The taking of the oldest request is due at a service moment (R132). -/
theorem slotRow_mem_dueEvents {s : State} {slot : Slot} {rest : List Slot} (oldest : s.agent.fifo = slot :: rest) :
    slotRow slot ∈ dueEvents s ↔ serviceOpen s = true := by
  have apart := slotRow_not_expiry slot
  simp only [List.forall_mem_cons, List.not_mem_nil, false_implies, implies_true, and_true] at apart
  obtain ⟨timeout, close, deadline, settle, pulse, a, b, lease⟩ := apart
  simp only [mem_dueEvents, timeout, close, deadline, settle, pulse, a, b, lease, oldest, false_and, false_or, List.cons.injEq]
  exact ⟨fun ⟨_, _, _, _, moment⟩ => moment, fun moment => ⟨slot, rest, ⟨rfl, rfl⟩, rfl, moment⟩⟩

/-- Settles O2: a move on the empty queue takes the service moment, hands out a due event, or lets part time rise. -/
theorem tickHandsOutDueEvents : Obligations.TickHandsOutDueEvents := by
  intro s idle released
  have means : step s = .next (tick s) := by unfold step; rw [idle]
  have moment := serviceOpen_iff s released
  have quiet : (serviceOpen s && s.agent.fifo.isEmpty) = true
      ↔ s.time.toNat % 1024 = 0 ∧ s.agent.serviced = false ∧ s.agent.fifo = [] := by
    simp only [Bool.and_eq_true, moment, List.isEmpty_iff]
    tauto
  have open_iff : ∀ e, e ∈ openEvents s ↔ e ∈ dueEvents s ∧ e ∉ s.handed := mem_openEvents s
  refine ⟨fun h => ?serviced, fun h => ⟨fun none => ?rises, fun some => ?handsOut⟩,
    (mem_dueEvents_expiry (by simp)).trans (by simp), (mem_dueEvents_expiry (by simp)).trans (by simp),
    (mem_dueEvents_expiry (by simp)).trans (by simp), (mem_dueEvents_expiry (by simp)).trans (by simp),
    (mem_dueEvents_expiry (by simp)).trans (by simp), fun p => ?sent, (mem_dueEvents_expiry (by simp)).trans (by simp),
    fun slot rest oldest => ?taking, fun e due => ?others⟩
  case serviced => rw [means, tick, if_neg (by simp [released]), if_pos (quiet.mpr h)]
  case rises =>
    rw [means, tick, if_neg (by simp [released]), if_neg (fun c => h (quiet.mp c))]
    rcases nextEvent_cases s with ⟨-, e⟩ | ⟨e, k, fresh, -⟩
    · rw [e, advance]
    · exact absurd (none e ((open_iff e).mp fresh).1) ((open_iff e).mp fresh).2
  case handsOut =>
    obtain ⟨d, due, fresh⟩ := some
    rw [means, tick, if_neg (by simp [released]), if_neg (fun c => h (quiet.mp c))]
    rcases nextEvent_cases s with ⟨none, -⟩ | ⟨e, k, mem, next⟩
    · exact absurd ((open_iff d).mpr ⟨due, fresh⟩) (by simp [none])
    · exact ⟨e, k, ((open_iff e).mp mem).1, ((open_iff e).mp mem).2, by rw [next]⟩
  case sent => cases p <;> exact (mem_dueEvents_expiry (by simp)).trans (by simp)
  case taking => rw [slotRow_mem_dueEvents oldest, moment]
  case others =>
    rw [mem_dueEvents] at due
    rcases due with ⟨rfl, -⟩ | ⟨rfl, -⟩ | ⟨rfl, -⟩ | ⟨rfl, -⟩ | ⟨rfl, -⟩ | ⟨rfl, -⟩ | ⟨rfl, -⟩ | ⟨rfl, -⟩ |
      ⟨slot, rest, oldest, row, -⟩
    case inr.inr.inr.inr.inr.inr.inr.inr => exact .inr ⟨slot, rest, oldest, row⟩
    all_goals exact .inl (by simp)

/-! ### In reset -/

/-- While RESET_N is low a command that is neither the reset pin's nor a link indication changes nothing (R95). -/
theorem exec_held {s : State} (h : s.inReset = true) {c : Instr} (assert : c ≠ .resetNAssert)
    (release : ∀ straps, c ≠ .resetNRelease straps) (up : ∀ p, c ≠ .linkUp p) (down : ∀ p, c ≠ .linkDown p) :
    exec c s = .next s := by
  cases c with
  | resetNAssert => exact absurd rfl assert
  | resetNRelease straps => exact absurd rfl (release straps)
  | linkUp p => exact absurd rfl (up p)
  | linkDown p => exact absurd rfl (down p)
  | receptionStart | receptionCompletion | transmissionCompletion | acquireTimeout | windowClose | entryDeadline
  | settleDue | syncOutPulseEnd | leaseExpiry => exact congrArg _ (outsideReset_inReset h _)
  | _ => exact congrArg _ (takeRequest_inReset h _ _)

/-- Settles O3: in reset time stands and each command's event is discarded. -/
theorem heldInReset : Obligations.HeldInReset := by
  refine fun s => ⟨fun low => ⟨fun idle => ?_, fun c => exec_held low, fun p => ⟨?_, ?_⟩⟩, fun high straps => ?_⟩
  · unfold step
    rw [idle]
    exact congrArg _ (if_pos low)
  · exact congrArg _ (outsideReset_inReset (s := s.setPhy p .up) low _)
  · exact congrArg _ (outsideReset_inReset (s := s.setPhy p .down) low _)
  · exact congrArg _ (if_neg (by simp [high]))

/-! ### The state after a reset -/

/-- The power-on state but for the states of the links. -/
def State.powerOnLinked (straps : Straps) (b : Bool) (phy : Pair Link) (k : Nat) (is : List Instr) (links : Pair Link) : State :=
  { State.powerOn straps b phy k is with ports := ⟨⟨links.a, Receiver.idle⟩, ⟨links.b, Receiver.idle⟩⟩ }

/-- With no frame in its queues a scheduler has nothing to start (R68). -/
theorem considerQueues_empty {p : Port} {s : State} (empty : ∀ q, (s.queue p q).records = []) :
    ∀ qs, considerQueues p qs s = s := by
  intro qs
  induction qs with
  | nil => rfl
  | cons q qs ih =>
    unfold considerQueues
    simp [empty, ih]

theorem evaluate_empty {p : Port} {s : State} (empty : ∀ q, (s.queue p q).records = []) : evaluate p s = s := by
  unfold evaluate
  split
  · exact considerQueues_empty empty _
  · rfl

section
variable (straps : Straps) (b : Bool) (phy links : Pair Link) (k : Nat) (is : List Instr)

theorem powerOn_queue (p : Port) (q : QueueName) : (State.powerOn straps b phy k is).queue p q = Queue.empty := by
  cases p <;> simp [State.queue, State.sched, State.powerOn, Egress.powerOn]

/-- A link up event right after reset is the link state alone: no session is open and every queue is empty (R90, R178). -/
theorem linkUpEvent_powerOn (p : Port) : linkUpEvent p (State.powerOnLinked straps b phy k is links)
    = State.powerOnLinked straps b phy k is (links.set p .up) := by
  have empty : ∀ q, (((State.powerOnLinked straps b phy k is links).setLink p .up).queue p q).records = [] := fun q =>
    congrArg Queue.records (powerOn_queue straps b phy k is p q)
  rw [linkUpEvent_closed p _ rfl, evaluate_empty empty]
  cases p <;> rfl

theorem sampleLink_powerOn (p : Port) (down : links.get p = .down) :
    sampleLink p (State.powerOnLinked straps b phy k is links)
      = State.powerOnLinked straps b phy k is (links.set p (phy.get p)) := by
  have indication : (State.powerOnLinked straps b phy k is links).pins.phy.get p = phy.get p := rfl
  unfold sampleLink
  rw [indication]
  cases level : phy.get p with
  | up => exact linkUpEvent_powerOn straps b phy links k is p
  | down =>
    have same : links.set p .down = links := by
      cases p <;> simp only [Pair.get] at down <;> rw [← down] <;> rfl
    simp only [same]

/-- After reset each port's link state is what its PHY indicates (R88). -/
theorem sampleLinks_powerOn :
    sampleLinks (State.powerOn straps b phy k is) = State.powerOnLinked straps b phy k is phy := by
  have down : State.powerOn straps b phy k is = State.powerOnLinked straps b phy k is ⟨.down, .down⟩ := rfl
  unfold sampleLinks
  rw [down, sampleLink_powerOn straps b phy _ k is .a rfl, sampleLink_powerOn straps b phy _ k is .b rfl]
  rfl

/-- The power-on station address carries the address straps in its last four bits (R94). -/
theorem strappedAddress_toNat : ∀ a : BitVec 4, (strappedAddress a).toNat = 0x024D46000000 + a.toNat := by decide

omit straps b phy links k is in
theorem Counters.zero_values (g : Group) : ∀ v ∈ groupValues Counters.zero g, v = 0 := by
  cases g with
  | port p => cases p <;> simp [groupValues, Counters.zero, Pair.get]
  | queue p q => cases p <;> simp [groupValues, Counters.zero, Pair.get]
  | tracker | sequencer | agent => simp [groupValues, Counters.zero]

/-- Every item of every block has its reset value at power-on, whatever the links. -/
theorem powerOnLinked_atPowerOn : (State.powerOnLinked straps b phy k is links).atPowerOn := by
  refine ⟨rfl, rfl, rfl, rfl, rfl, rfl, rfl, rfl, rfl, fun i => ?entries, fun p => ?port, ?records, ?cells, fun i => ?table,
    rfl, rfl, rfl, ?items, Counters.zero_values, rfl⟩
  case entries =>
    simp only [State.powerOnLinked, State.powerOn, ProgramStore.powerOn, Bank.powerOn, Bank.entry, Fin.getElem_fin,
      Vector.getElem_replicate]
    exact ⟨rfl, rfl⟩
  case port =>
    refine ⟨?_, ?_, ?_, powerOn_queue straps b phy k is p⟩ <;> cases p <;> rfl
  case records => simp only [State.powerOnLinked, State.powerOn, Pool.powerOn]
  case cells => simp only [State.powerOnLinked, State.powerOn, Pool.powerOn]
  case table =>
    simp only [State.powerOnLinked, State.powerOn, Classifier.entry, Classifier.hit, Fin.getElem_fin, Vector.getElem_replicate]
    exact ⟨rfl, trivial⟩
  case items =>
    exact ⟨strappedAddress_toNat _, rfl, rfl, rfl, rfl, rfl, rfl, rfl, rfl, rfl, rfl, rfl, rfl, rfl, rfl, rfl, rfl⟩

end

/-- Settles O4: the state after reset meets each invariant as every power-on state does. -/
theorem resetStateSound : Obligations.ResetStateSound := by
  obtain ⟨follows, tracker, sequencer⟩ := powerOn_cadenceSound lowStraps true ⟨.down, .down⟩ 0 []
  exact ⟨powerOnLinked_atPowerOn lowStraps true ⟨.down, .down⟩ ⟨.down, .down⟩ 0 [], fun p => by cases p <;> rfl, rfl, rfl,
    cellsCanonical_moves.powerOn _ _ _ _ _, rfl, rfl, fun p => by cases p <;> rfl, capacitiesKept_moves.powerOn _ _ _ _ _,
    sessionSound_moves.powerOn _ _ _ _ _, itemsInRange_moves.powerOn _ _ _ _ _, programsSound_moves.powerOn _ _ _ _ _,
    follows, tracker, sequencer, downPortsQuiet_moves.powerOn _ _ _ _ _, poolWhole_powerOn _ _ _ _ _, fun low => (nomatch low)⟩

/-- Settles O5: the assertion of RESET_N leaves the power-on state under the straps that stand. -/
theorem resetAssertClears : Obligations.ResetAssertClears := fun s =>
  ⟨_, rfl, powerOnLinked_atPowerOn s.straps false s.pins.phy ⟨.down, .down⟩ s.tieCount s.pending,
    fun p => by cases p <;> rfl, rfl, rfl, rfl, rfl⟩

/-- Settles O6: the release leaves the power-on state under the straps sampled, with the links that the PHYs indicate. -/
theorem resetReleaseSamples : Obligations.ResetReleaseSamples := by
  intro straps s low
  refine ⟨State.powerOnLinked straps true s.pins.phy s.tieCount s.pending s.pins.phy, ?_, powerOnLinked_atPowerOn _ _ _ _ _ _,
    rfl, rfl, rfl, rfl, rfl, fun p => by cases p <;> rfl, rfl, strappedAddress_toNat _⟩
  exact congrArg _ ((if_pos low).trans (sampleLinks_powerOn _ _ _ _ _))

/-- Settles O7: the owner's RESET FULL leaves the power-on state under the straps that stand, and its request has no response. -/
theorem fullResetClears : Obligations.FullResetClears := by
  intro s slot rest serves owner
  have means : exec .resetFull s = .next (fullReset (s.owned rest)) := takeOwned_silent serves owner rfl
  refine ⟨State.powerOnLinked s.straps true s.pins.phy s.tieCount s.pending s.pins.phy, ?_, powerOnLinked_atPowerOn _ _ _ _ _ _,
    rfl, rfl, rfl, rfl, rfl, fun p => by cases p <;> rfl, rfl, strappedAddress_toNat _⟩
  exact means.trans (congrArg _ (sampleLinks_powerOn _ _ _ _ _))

end Sys2Proof.Machine
end

section
/-! PROOF. Frames and gates (R65, R66, R69, R70, R83 to R87, R99, R100, R103 to R108): the judgement of a frame that is received, the class and the mark
of an ordinary frame, the guard check, and gate changes. -/

namespace Sys2Proof.Machine

/-! ### The check sequence -/

/-- A whole frame passes when its last four bytes are the check sequence of those before them (R85). -/
theorem checkPasses_append {covered sequence : List Byte} (four : sequence.length = 4) :
    checkPasses (covered ++ sequence) = true ↔ sequence = checkSequence covered := by
  simp [checkPasses, four]

theorem checkRegister_append (bytes : List Byte) (b : Byte) : checkRegister (bytes ++ [b])
    = [b.getLsbD 0, b.getLsbD 1, b.getLsbD 2, b.getLsbD 3, b.getLsbD 4, b.getLsbD 5, b.getLsbD 6, b.getLsbD 7].foldl
        checkShift (checkRegister bytes) := by
  rw [checkRegister, List.foldl_append]
  rfl

/-! ### Receptions -/

/-- Outside reset a completed reception is judged, and the receiver is left idle; without one nothing is complete (R85, R87). -/
theorem exec_receptionCompletion {s : State} (released : s.inReset = false) (p : Port) (frame : List Byte) (err : Bool) :
    exec (.receptionCompletion p frame err) s
      = .next (if (s.port p).receiver.receiving then releaseReceiver p (judgeFrame p (stageBytes p frame err s)) else s) :=
  congrArg Host.Outcome.next (outsideReset_released released _)

theorem exec_receptionStart {s : State} (released : s.inReset = false) (p : Port) :
    exec (.receptionStart p) s
      = .next (if (s.port p).link = .up ∧ (s.port p).receiver.receiving = false then
          s.setPort p { s.port p with receiver := ⟨true, [], 0, false⟩ } else s) :=
  congrArg Host.Outcome.next (outsideReset_released released _)

/-- The receiver holds the first 1,536 bytes, the count of all, and the damage so far (R84). -/
theorem stageBytes_receiver (p : Port) (frame : List Byte) (err : Bool) (s : State) :
    ((stageBytes p frame err s).port p).receiver
      = ⟨true, frame.take 1536, frame.length, (s.port p).receiver.damaged || err⟩ := by
  rw [stageBytes, State.port_setPort, if_pos rfl]

/-- A frame that is lost leaves the receiver idle and one count of its port, and nothing else (R85). -/
theorem lostFrame_eq (p : Port) (frame : List Byte) (err : Bool) (f : PortCounters → PortCounters) (s : State) :
    releaseReceiver p ((stageBytes p frame err s).countPort p f)
      = (s.setPort p ⟨(s.port p).link, Receiver.idle⟩).countPort p f := by
  cases p <;> rfl

/-- A frame of a legal length with no receive error and the right check sequence is counted and classified (R86). -/
theorem judgeFrame_good {p : Port} {frame : List Byte} {s : State} (good : s.receivesGood p frame) :
    judgeFrame p (stageBytes p frame false s) = classify p frame (s.goodCounted p frame) := by
  obtain ⟨-, -, sound, long, short, passes⟩ := good
  unfold judgeFrame State.goodCounted
  simp only [stageBytes_receiver, List.take_of_length_le short, if_neg (not_lt.mpr long), if_neg (not_lt.mpr short), sound,
    passes, Bool.or_false, Bool.not_true, Bool.false_eq_true, if_false]

/-- A good frame is classified, and the receiver is left idle (R86). -/
theorem exec_good {p : Port} {frame : List Byte} {s : State} (good : s.receivesGood p frame) :
    exec (.receptionCompletion p frame false) s
      = .next (releaseReceiver p (classify p frame (s.goodCounted p frame))) := by
  have ⟨released, receiving, _⟩ := good
  rw [exec_receptionCompletion released, if_pos receiving, judgeFrame_good good]

/-- A frame whose receive error or check sequence is wrong is lost once its length is legal (R85). -/
theorem judgeFrame_damaged {p : Port} {frame : List Byte} {err : Bool} {s : State} (long : 64 ≤ frame.length)
    (short : frame.length ≤ 1536) (bad : (s.port p).receiver.damaged = true ∨ err = true ∨ checkPasses frame = false) :
    judgeFrame p (stageBytes p frame err s) = (stageBytes p frame err s).countPort p
      (fun c => { c with checkErrors := Count.up c.checkErrors }) := by
  have lost : ((s.port p).receiver.damaged || err || !checkPasses frame) = true := by
    simp only [Bool.or_eq_true, Bool.not_eq_true', or_assoc]
    exact bad
  unfold judgeFrame
  simp only [stageBytes_receiver, List.take_of_length_le short, if_neg (not_lt.mpr long), if_neg (not_lt.mpr short), lost,
    if_true]

/-- Settles O11: the judgements of a reception in their order, each with its one count. -/
theorem receptionsAndBadFrames : Obligations.ReceptionsAndBadFrames := by
  refine ⟨⟨fun _ _ => rfl, rfl, checkRegister_append, fun covered sequence four => ?check⟩,
    fun p s released => ⟨fun up idle => ?start, fun down => ?notTaken⟩,
    fun p frame err s released => ⟨fun receiving => ⟨fun runt => ?runt, fun giant => ?giant, fun long short bad => ?damaged⟩,
      fun idle => ?none⟩⟩
  case check => rw [checkPasses_append four, checkSequence, crc32_eq_checkRegister]
  case start => rw [exec_receptionStart released, if_pos ⟨up, idle⟩, ← up]
  case notTaken => rw [exec_receptionStart released, if_neg (by simp [down])]
  case none => rw [exec_receptionCompletion released, if_neg (by simp [idle])]
  all_goals rw [exec_receptionCompletion released, if_pos receiving, ← lostFrame_eq p frame err]
  case damaged => rw [judgeFrame_damaged long short bad]
  case runt =>
    unfold judgeFrame
    simp only [stageBytes_receiver, if_pos runt]
  case giant =>
    unfold judgeFrame
    simp only [stageBytes_receiver, if_pos giant, if_neg (show ¬frame.length < 64 by omega)]

/-! ### Classification -/

theorem isManagement_iff (s : State) (f : FrameFields) :
    isManagement s f = true ↔ f.destination = s.config.stationAddress ∧ f.etherType = s.config.managementType := by
  simp [isManagement]

/-- Settles O12: a management frame goes to the request FIFO alone. -/
theorem managementFrameQueued : Obligations.ManagementFrameQueued := by
  intro p frame s good destination type
  have management : isManagement (s.goodCounted p frame) (frameFields frame) = true :=
    (isManagement_iff _ _).mpr ⟨destination, type⟩
  rw [exec_good good, classify, if_pos management]
  rfl

/-- The action and the hit counts that R103 and R104 give are those selected. -/
theorem selectAction_governed (p : Port) (f : FrameFields) (s : State) : ∃ (a : Action) (hits : Vector Count 64),
    (match governing s.classifier p f with
      | some i => a = (s.classifier.entry i).action ∧ hits = s.classifier.hits.set i (Count.up (s.classifier.hit i))
      | none => a = s.config.defaultAction ∧ hits = s.classifier.hits)
    ∧ selectAction p f s = (a, { s with classifier := ⟨s.classifier.entries, hits⟩ }) := by
  unfold selectAction
  cases governing s.classifier p f with
  | none => exact ⟨_, _, ⟨rfl, rfl⟩, rfl⟩
  | some i => exact ⟨_, _, ⟨rfl, rfl⟩, rfl⟩

/-- Settles O13: selection, hit, mark and disposition in their order. -/
theorem ordinaryFrameClassified : Obligations.OrdinaryFrameClassified := by
  intro p frame s good ordinary
  have other : isManagement (s.goodCounted p frame) (frameFields frame) = false := by
    rw [← Bool.not_eq_true, isManagement_iff]
    exact ordinary
  obtain ⟨a, hits, governs, selected⟩ := selectAction_governed p (frameFields frame) (s.goodCounted p frame)
  refine ⟨a, hits, governs, ?_⟩
  rw [exec_good good, classify, other, if_neg Bool.false_ne_true, classifyOrdinary, selected]
  rfl

/-- Settles O15, by the cases of the class choice and of the mark kind. -/
theorem classAndMark : Obligations.ClassAndMark := by
  refine ⟨fun f k => ?_, fun f t tagged => ?_, fun f untagged => ?_, fun p s => ⟨rfl, fun off k marked => ?_, fun on => ?_⟩⟩
  · simp only [frameClass, Fin.val_ofNat]
    omega
  · simp only [frameClass, tagged, Fin.val_ofNat]
    omega
  · simp only [frameClass, untagged]
  · cases k with
    | noMark => exact absurd rfl marked
    | cycle | step => exact if_neg off
  · exact ⟨if_pos on, if_pos on⟩

/-! ### Guards and gates -/

/-- Settles O17: the arithmetic of part time, the guard check and the flag of a head that is passed over. -/
theorem guardedHeads : Obligations.GuardedHeads := by
  refine ⟨⟨fun a b => ?after, fun m d => ?plus, fun p h s => ⟨fun speed => ?_, fun speed => ?_⟩⟩,
    ⟨fun _ _ => rfl, fun g m d => ?limit⟩, fun p h s => ⟨fun clear => ⟨?held, ?flag⟩, fun set => ?again⟩⟩
  case after =>
    simp only [Time.after, Bool.and_eq_true, decide_eq_true_eq, BitVec.toNat_sub]
    have ha := a.isLt
    have hb := b.isLt
    rw [show 2 ^ 48 - b.toNat + a.toNat = a.toNat + 2 ^ 48 - b.toNat by omega]
  case plus => simp [Time.plus]
  case limit => simp [guardPasses]
  case held => exact if_neg (by simp [clear])
  case flag =>
    rw [holdHead, if_neg (by simp [clear])]
    exact congrArg FrameRecord.guardHeld ((s.record_setRecord h h _).trans (if_pos rfl))
  case again => exact if_pos set
  all_goals rw [State.recordTime, transmissionTime, speed, ticksPerByte]

/-- A gate change with a frame in flight judges that frame for overrun (R66). -/
theorem takeGateChange_flying {p : Port} {s : State} {f : InFlight} (x : Presentation)
    (flying : (s.sched p).inFlight = some f) : takeGateChange p x s =
      if GateSet.opens x.gates (s.record f.record).queue = false ∧ Time.after f.due s.time = true
          ∧ f.overrunCounted = false then
        (s.setSched p { s.sched p with presentation := x, inFlight := some { f with overrunCounted := true } }).countPort p
          (fun c => { c with overruns := Count.up c.overruns })
      else s.setSched p { s.sched p with presentation := x } := by
  have held : ((s.setSched p { s.sched p with presentation := x }).sched p).inFlight = some f := by
    rw [State.sched_setSched, if_pos rfl]
    exact flying
  have judged : isOverrun (s.setSched p { s.sched p with presentation := x }) f x.gates = true
      ↔ GateSet.opens x.gates (s.record f.record).queue = false ∧ Time.after f.due s.time = true ∧ f.overrunCounted = false := by
    simp only [isOverrun, Bool.and_eq_true, Bool.not_eq_true', and_assoc]
    exact Iff.rfl
  unfold takeGateChange
  simp only [held, judged]
  cases p <;> rfl

/-- A gate change with the transmitter idle leads to an evaluation (R65). -/
theorem takeGateChange_idle {p : Port} {s : State} (x : Presentation) (idle : (s.sched p).inFlight = none) :
    takeGateChange p x s = evaluate p (s.setSched p { s.sched p with presentation := x }) := by
  have held : ((s.setSched p { s.sched p with presentation := x }).sched p).inFlight = none := by
    rw [State.sched_setSched, if_pos rfl]
    exact idle
  unfold takeGateChange
  simp only [held]

/-- Settles O18: the deliveries to the two ports, and what a scheduler makes of one. -/
theorem gateChangeTaken : Obligations.GateChangeTaken := by
  refine ⟨fun _ _ => rfl, fun p x s => ⟨fun same => if_pos same, fun differs => if_neg differs⟩, fun x s => ?both,
    fun p x s => ⟨?_, ?_, ?_, takeGateChange_idle x, fun f => takeGateChange_flying x⟩⟩
  case both =>
    obtain ⟨-, pins, -, -, -, -, sequencer, programs, -, -, notices, -⟩ := presentBoth_fields x s
    obtain ⟨tracker, walk⟩ := presentBoth_groups x s
    exact ⟨rfl, presentBoth_walk x s, sequencer, programs, pins, notices, tracker, walk,
      fun agree p => presentBoth_presentation p x s agree⟩
  · rw [takeGateChange_presentation, if_pos rfl]
  · exact (takeGateChange_same p x s).port p
  · rw [takeGateChange_presentation, if_neg (opposite_ne p)]

/-- Settles O29: the wait of the pulse is due or it is not. -/
theorem syncOutPulseEnds : Obligations.SyncOutPulseEnds := by
  intro s released
  have means : exec .syncOutPulseEnd s = .next (if waitDue s.sequencer.pulseEnd s then
      { s with pins := { s.pins with syncOut := false }, sequencer := { s.sequencer with pulseEnd := none } } else s) :=
    congrArg Host.Outcome.next (outsideReset_released released _)
  refine ⟨fun due => ?_, fun early => ?_⟩
  · rw [means, if_pos (by simp [waitDue, due])]
  · rw [means, if_neg (by simpa [waitDue] using early)]

end Sys2Proof.Machine
end

section
/-! PROOF. The cadence tracker's events (R7 to R13, R15, R16, R19, R59, R171): the acquire timeout, the window close, and cycle marks. -/

namespace Sys2Proof.Machine

/-! ### Boundaries -/

/-- A boundary leaves the counters of the tracker group alone (R20). -/
theorem takeBoundary_trackerGroup (origin : Time) (ref : Nat) (s : State) :
    (takeBoundary origin ref s).counters.tracker = s.counters.tracker := by
  have started (h : s.sequencer.state = .free ∨ s.sequencer.state = .running ∨ s.sequencer.state = .rejoining) :
      (takeBoundary origin ref s).counters.tracker = s.counters.tracker := by
    rw [takeBoundary_eq_startCycle origin ref h, (startCycle_groups origin ref _).1, s.cycleEnded_groups.1]
  cases st : s.sequencer.state with
  | stopped | halted => simp [takeBoundary, st]
  | free => exact started (.inl st)
  | running => exact started (.inr (.inl st))
  | rejoining => exact started (.inr (.inr st))

/-- A boundary in STOPPED and HALTED leaves the sequencer alone (R44). -/
theorem takeBoundary_stands (origin : Time) (ref : Nat) {s : State}
    (h : s.sequencer.state = .stopped ∨ s.sequencer.state = .halted) :
    (takeBoundary origin ref s).sequencer = s.sequencer := by
  unfold takeBoundary
  rcases h with h | h <;> rw [h]
  rfl

/-- A boundary that starts a cycle latches T and S in RUNNING (R46). -/
theorem takeBoundary_starts (origin : Time) (ref : Nat) {s : State}
    (h : s.sequencer.state = .free ∨ s.sequencer.state = .running ∨ s.sequencer.state = .rejoining) :
    (takeBoundary origin ref s).sequencer.state = .running ∧ (takeBoundary origin ref s).sequencer.origin = origin
      ∧ (takeBoundary origin ref s).sequencer.span = ref
      ∧ (takeBoundary origin ref s).sequencer.cycle = if s.sequencer.state = .free then 0 else s.sequencer.cycle + 1 := by
  rw [takeBoundary_eq_startCycle origin ref h, startCycle_sequencer_eq origin ref _ rfl rfl, nextCycle_cycleEnded h]
  exact ⟨rfl, rfl, rfl, rfl⟩

/-! ### The acquire timeout -/

/-- Settles O22: due in ACQUIRING it clears the tracker, and else it finds nothing to do. -/
theorem acquireTimeoutTaken : Obligations.AcquireTimeoutTaken := by
  intro s released
  have means : exec .acquireTimeout s = .next
      (if s.tracker.state = .acquiring ∧ s.tracker.wait = some (.acquireTimeout s.time) then
        s.setTracker (s.tracker.cleared .seeking) else s) := congrArg Host.Outcome.next (outsideReset_released released _)
  refine ⟨fun acquiring due => ?_, fun early => ?_⟩
  · rw [means, if_pos ⟨acquiring, due⟩]
    rfl
  · rw [means, if_neg fun h => early h.2]

/-! ### The window close -/

/-- The state of the tracker after a missing mark that holdover carries (R12). -/
def State.carried (s : State) (ref : Nat) : State :=
  s.setTracker { s.tracker with
    state := .holdover
    boundary := Time.plus s.tracker.boundary ref
    missing := s.tracker.missing + 1
    synthesised := true
    wait := windowWait (Time.plus s.tracker.boundary ref) ref s.config.window }

theorem carryCycle_eq (ref : Nat) (s : State) : carryCycle ref s = takeBoundary (Time.plus s.tracker.boundary ref) ref
    (if s.tracker.state = .locked then
      raiseNotice (.holdoverEntered (Time.plus s.tracker.boundary ref)) s.boundaryCycle (s.carried ref) else s.carried ref) := by
  rw [← cycleAfterBoundary_eq]
  rfl

/-- A notice, if it is raised before the boundary, leaves what the boundary reads (R19). -/
theorem noticed_fields (P : Prop) [Decidable P] (d : NoticeDetail) (c : Count) (w : State) :
    (if P then raiseNotice d c w else w).sequencer = w.sequencer
      ∧ (if P then raiseNotice d c w else w).counters.tracker = w.counters.tracker := by
  split
  · obtain ⟨-, -, -, -, -, -, sequencer, -⟩ := raiseNotice_fields d c w
    obtain ⟨tracker, -⟩ := raiseNotice_groups d c w
    exact ⟨sequencer, tracker⟩
  · exact ⟨rfl, rfl⟩

/-- Outside reset a window close that is due in LOCKED or HOLDOVER is taken (R12, R13). -/
theorem exec_windowClose_due {s : State} {ref : Nat} (released : s.inReset = false) (locked : s.tracker.state.isLocked = true)
    (due : s.tracker.wait = some (.windowClose s.time)) (defined : s.tracker.ref = some ref) :
    exec .windowClose s = .next (windowCloseTaken ref s) := by
  refine congrArg Host.Outcome.next ((outsideReset_released released _).trans ?_)
  simp only [if_pos (And.intro locked due), defined]

theorem exec_windowClose_early {s : State} (released : s.inReset = false)
    (early : s.tracker.wait ≠ some (.windowClose s.time)) : exec .windowClose s = .next s :=
  congrArg Host.Outcome.next ((outsideReset_released released _).trans (if_neg fun h => early h.2))

theorem windowCloseTaken_cases (ref : Nat) (s : State) : windowCloseTaken ref s =
    if s.tracker.missing + 1 ≤ s.config.holdover then
      carryCycle ref (s.countTracker (fun c => { c with missingMarks := Count.up c.missingMarks }))
    else lockLoss .missing (s.countTracker (fun c => { c with missingMarks := Count.up c.missingMarks })) := rfl

/-- Every lock loss clears the tracker, counts itself, raises LOCK_LOST and drives LOCK low, and then the sequencer leaves the program (R16, R59). -/
theorem lockLoss_eq (cause : LossCause) (s : State) : lockLoss cause s = sequencerLockLoss
    ((raiseNotice (.lockLost cause) s.lossCycle ((s.setTracker (s.tracker.cleared cause.stateAfter)).countTracker
      (fun c => { c with lockLosses := Count.up c.lockLosses }))).setLock false) := rfl

/-- The sequencer's part of a lock loss, from a program followed (R59). -/
theorem sequencerLockLoss_following {s : State} (follows : s.sequencer.state.follows = true) :
    sequencerLockLoss s = applyPendingCommit .freeEntry 0 (presentBoth (freePresentation s)
      { leaveEntry s with sequencer := { (leaveEntry s).sequencer with state := .free, cycle := 0 } }) := by
  have config : (leaveEntry s).config = s.config := by simp
  unfold sequencerLockLoss
  simp only [if_pos follows, freePresentation, config]

theorem windowClose_carries {s : State} {ref : Nat} (released : s.inReset = false) (locked : s.tracker.state.isLocked = true)
    (due : s.tracker.wait = some (.windowClose s.time)) (defined : s.tracker.ref = some ref)
    (within : s.tracker.missing + 1 ≤ s.config.holdover) :
    exec .windowClose s
      = .next (carryCycle ref (s.countTracker (fun c => { c with missingMarks := Count.up c.missingMarks }))) := by
  rw [exec_windowClose_due released locked due defined, windowCloseTaken_cases, if_pos within]

theorem windowClose_loses {s : State} {ref : Nat} (released : s.inReset = false) (locked : s.tracker.state.isLocked = true)
    (due : s.tracker.wait = some (.windowClose s.time)) (defined : s.tracker.ref = some ref)
    (beyond : s.config.holdover < s.tracker.missing + 1) :
    exec .windowClose s
      = .next (lockLoss .missing (s.countTracker (fun c => { c with missingMarks := Count.up c.missingMarks }))) := by
  rw [exec_windowClose_due released locked due defined, windowCloseTaken_cases, if_neg (not_le.mpr beyond)]

/-- The programs after a lock loss: a pending commit is applied from a program followed alone (R59, R167). -/
theorem State.lossPrograms_following {s : State} (follows : s.sequencer.state.follows = true) :
    s.lossPrograms.commitPending = false
      ∧ s.lossPrograms.active = if s.programs.commitPending then s.programs.staged else s.programs.active := by
  unfold State.lossPrograms
  by_cases pending : s.programs.commitPending = true
  · simp [follows, pending]
  · simp [pending]

/-- Settles O23: a missing mark is carried while holdover allows it and else loses lock; every lock loss goes the same way. -/
theorem windowCloseTaken_holds : Obligations.WindowCloseTaken := by
  refine ⟨fun s ref released => ⟨fun locked due defined within => ?carried, exec_windowClose_early released⟩,
    fun s ref released locked due defined beyond => ?lost, ?loss⟩
  case carried =>
    have counted : s.sameButCadence (s.countTracker (fun c => { c with missingMarks := Count.up c.missingMarks })) := rfl
    have ⟨tracker, lock⟩ := carryCycle_tracker ref
      (s.countTracker (fun c => { c with missingMarks := Count.up c.missingMarks }))
    refine ⟨_, _, _, windowClose_carries released locked due defined within, counted.trans (carryCycle_cadence ref _), rfl, rfl,
      carryCycle_eq ref _, tracker, lock, ?_, fun stands => ?_, fun starts => ?_, (carryCycle_raises ref _).before counted rfl⟩
    · rw [carryCycle_eq, takeBoundary_trackerGroup, (noticed_fields _ _ _ _).2]
      rfl
    · rw [carryCycle_eq, takeBoundary_stands, (noticed_fields _ _ _ _).1]
      · rfl
      · rw [(noticed_fields _ _ _ _).1]
        exact stands
    · obtain ⟨running, origin, span, -⟩ := takeBoundary_starts (Time.plus s.tracker.boundary ref) ref
        (s := if s.tracker.state = .locked then
          raiseNotice (.holdoverEntered (Time.plus s.tracker.boundary ref)) s.boundaryCycle
            ((s.countTracker (fun c => { c with missingMarks := Count.up c.missingMarks })).carried ref)
          else (s.countTracker (fun c => { c with missingMarks := Count.up c.missingMarks })).carried ref)
        (by rw [(noticed_fields _ _ _ _).1]; exact starts)
      rw [carryCycle_eq]
      exact ⟨running, origin, span⟩
  case lost =>
    have counted : s.sameButCadence (s.countTracker (fun c => { c with missingMarks := Count.up c.missingMarks })) := rfl
    obtain ⟨tracker, -⟩ := lockLoss_tracker .missing
      (s.countTracker (fun c => { c with missingMarks := Count.up c.missingMarks }))
    obtain ⟨pins, walk⟩ := lockLoss_counts .missing
      (s.countTracker (fun c => { c with missingMarks := Count.up c.missingMarks }))
    obtain ⟨sequencer, programs, raises⟩ := lockLoss_raises .missing
      (s.countTracker (fun c => { c with missingMarks := Count.up c.missingMarks }))
    refine ⟨_, windowClose_loses released locked due defined beyond, counted.trans (lockLoss_cadence _ _), rfl, tracker, pins,
      lockLoss_groups _ _, fun follows => ?_, fun idle => ?_, walk, raises.before counted rfl⟩
    · obtain ⟨cleared, active⟩ := State.lossPrograms_following follows
      exact ⟨sequencer.trans (if_pos follows), (congrArg ProgramStore.commitPending programs).trans cleared,
        (congrArg ProgramStore.active programs).trans active⟩
    · exact ⟨sequencer.trans (if_neg (by simp [idle])), programs.trans (if_neg (by simp [idle]))⟩
  case loss =>
    intro cause s u n v cleared noticed low
    have sequencer : v.sequencer = s.sequencer := by simp [low, noticed, cleared]
    have config : v.config = s.config := by simp [low, noticed, cleared]
    have means : lockLoss cause s = sequencerLockLoss v := by
      rw [lockLoss_eq, low, noticed, cleared]
      cases cause <;> rfl
    refine ⟨fun idle => ?_, fun follows w free => ?_, lockLoss_cadence cause s, (lockLoss_counts cause s).2⟩
    · rw [means, sequencerLockLoss, if_neg (by simp [sequencer, idle])]
    · rw [means, sequencerLockLoss_following (by rw [sequencer, follows]), free, freePresentation, config]

/-! ### Cycle marks -/

/-- A runt span is counted and changes nothing else (R8). -/
theorem markAcquiring_runt {m : Time} {s : State} (short : (m - s.tracker.boundary).toNat < s.config.spanMin) :
    markAcquiring m s = s.countTracker (fun c => { c with runtSpans := Count.up c.runtSpans }) := if_pos short

/-- A captured span that is not the N-th restarts the acquire timeout (R8). -/
theorem markAcquiring_captured {m : Time} {s : State} (long : s.config.spanMin ≤ (m - s.tracker.boundary).toNat)
    (more : min 16 (s.tracker.captures + 1) < s.config.depth) :
    markAcquiring m s = (s.setTracker { s.tracker.capture (m - s.tracker.boundary).toNat with
        boundary := m, wait := some (.acquireTimeout (Time.plus m s.config.spanMax)) }).countTracker
      (fun c => { c with acceptedMarks := Count.up c.acceptedMarks }) :=
  (if_neg (not_lt.mpr long)).trans (if_neg (not_le.mpr more))

/-- With the N-th capture the tracker locks (R8). -/
theorem markAcquiring_locks {m : Time} {s : State} (long : s.config.spanMin ≤ (m - s.tracker.boundary).toNat)
    (enough : s.config.depth ≤ min 16 (s.tracker.captures + 1)) :
    markAcquiring m s = acquireLock m (countAccepted (s.setTracker
      { s.tracker.capture (m - s.tracker.boundary).toNat with boundary := m })) :=
  (if_neg (not_lt.mpr long)).trans (if_pos enough)

/-- The state of the tracker and of LOCK as the tracker locks (R8). -/
def State.lockTaken (s : State) (m : Time) : State :=
  (s.setTracker { s.tracker with
    state := .locked
    ref := some (meanOfNewest s.config.depth s.tracker.history)
    missing := 0
    synthesised := false
    wait := windowWait m (meanOfNewest s.config.depth s.tracker.history) s.config.window }).setLock true

/-- The lock, with the notice that it raises before the boundary (R8, R15, R19). -/
theorem acquireLock_eq (m : Time) (s : State) : acquireLock m s =
    takeBoundary m (meanOfNewest s.config.depth s.tracker.history) (raiseNotice
      (.lockAcquired (meanOfNewest s.config.depth s.tracker.history)) s.boundaryCycle (s.lockTaken m)) := by
  rw [← cycleAfterBoundary_eq]
  rfl

theorem acquireLock_trackerGroup (m : Time) (s : State) : (acquireLock m s).counters.tracker = s.counters.tracker := by
  rw [acquireLock_eq, takeBoundary_trackerGroup, (raiseNotice_groups _ _ _).1]
  rfl

/-- From FREE the first cycle starts at the mark that locks (R15, R46). -/
theorem acquireLock_free (m : Time) {s : State} (free : s.sequencer.state = .free) :
    (acquireLock m s).sequencer.state = .running ∧ (acquireLock m s).sequencer.cycle = 0
      ∧ (acquireLock m s).sequencer.origin = m
      ∧ (acquireLock m s).sequencer.span = meanOfNewest s.config.depth s.tracker.history := by
  have still : (raiseNotice (.lockAcquired (meanOfNewest s.config.depth s.tracker.history)) s.boundaryCycle
      (s.lockTaken m)).sequencer.state = .free := by simpa [State.lockTaken] using free
  rw [acquireLock_eq]
  obtain ⟨running, origin, span, cycle⟩ := takeBoundary_starts m (meanOfNewest s.config.depth s.tracker.history) (.inl still)
  exact ⟨running, cycle.trans (if_pos still), origin, span⟩

/-- Settles O24: the first mark, a runt, a captured span and the lock. -/
theorem acquisitionMarksTaken : Obligations.AcquisitionMarksTaken := by
  refine ⟨fun m s => ⟨fun off => ?off, fun seeking => ?first⟩,
    fun m s acquiring => ⟨fun short => ?runt, fun long history spans => ⟨fun more => ?captured, fun enough => ?locks⟩⟩⟩
  case off => simp [takeCycleMark, off]
  case first =>
    rw [takeCycleMark, seeking]
    rfl
  all_goals
    have means : takeCycleMark m s = markAcquiring m s := by simp [takeCycleMark, acquiring]
    rw [means]
  case runt => exact markAcquiring_runt short
  case captured =>
    rw [markAcquiring_captured long more, spans]
    rfl
  case locks =>
    intro ref v newest moved
    have locks := markAcquiring_locks long enough
    have cadence := markAcquiring_cadence m s
    rw [locks] at cadence ⊢
    generalize counted : countAccepted _ = u at cadence ⊢
    have depth : u.config = s.config := by rw [← counted]; rfl
    have spans' : u.tracker.history = history := by rw [← counted, spans]; rfl
    have mean : meanOfNewest u.config.depth u.tracker.history = ref := by rw [newest, depth, spans']; rfl
    have sequencer : u.sequencer = s.sequencer := by rw [← counted]; rfl
    obtain ⟨tracker, lock⟩ := acquireLock_tracker m u
    have boundary := acquireLock_eq m u
    have raises := acquireLock_raises m u
    rw [State.lockTaken] at boundary
    rw [mean] at tracker boundary raises
    have same : s.sameButCadence u := by rw [← counted]; rfl
    have quiet : u.notices = s.notices := by rw [← counted]; rfl
    refine ⟨?_, cadence, ?_, lock, ?_, fun free => ?_, ?_⟩
    · rw [boundary, moved, ← counted, spans]
      rfl
    · rw [tracker, ← counted, spans]
      rfl
    · rw [acquireLock_trackerGroup, ← counted]
      rfl
    · obtain ⟨running, cycle, origin, span⟩ := acquireLock_free m (s := u) (by rw [sequencer, free])
      exact ⟨running, cycle, origin, span.trans mean⟩
    · rw [show s.boundaryCycle = u.boundaryCycle by rw [← counted]; rfl,
        show s.boundaryNotices = u.boundaryNotices by rw [← counted]; rfl]
      exact raises.before same quiet

/-- The span of an accepted mark: captured with a new ref when the flag is clear and it lies within the limits, else the history and ref stand (R11). -/
theorem examineSpan_cases (m : Time) {s : State} {ref : Nat} (defined : s.tracker.ref = some ref) :
    ∃ history captures ref', examineSpan m s = { s.tracker with history := history, captures := captures, ref := some ref' }
      ∧ (if s.tracker.synthesised = false ∧ s.config.spanMin ≤ (m - s.tracker.boundary).toNat
            ∧ (m - s.tracker.boundary).toNat ≤ s.config.spanMax then
          history = (((m - s.tracker.boundary).toNat :: s.tracker.history).take 16)
            ∧ captures = min 16 (s.tracker.captures + 1)
            ∧ ref' = (history.take s.config.depth).sum / s.config.depth
        else history = s.tracker.history ∧ captures = s.tracker.captures ∧ ref' = ref) := by
  by_cases taken : s.tracker.synthesised = false ∧ s.config.spanMin ≤ (m - s.tracker.boundary).toNat
      ∧ (m - s.tracker.boundary).toNat ≤ s.config.spanMax
  · refine ⟨_, _, _, if_pos ?_, by rw [if_pos taken]; exact ⟨rfl, rfl, rfl⟩⟩
    simp only [Bool.and_eq_true, Bool.not_eq_true', decide_eq_true_eq]
    exact taken
  · refine ⟨s.tracker.history, s.tracker.captures, ref, ?_, by rw [if_neg taken]; exact ⟨rfl, rfl, rfl⟩⟩
    rw [← defined]
    refine if_neg fun h => taken ?_
    simp only [Bool.and_eq_true, Bool.not_eq_true', decide_eq_true_eq] at h
    exact h

/-- The state of the tracker after an accepted mark (R11). -/
def State.markAccepted (s : State) (m : Time) (ref : Nat) : State :=
  countAccepted (s.setTracker { examineSpan m s with
    state := .locked
    boundary := m
    synthesised := false
    missing := 0
    wait := windowWait m ((examineSpan m s).ref.getD ref) s.config.window })

theorem acceptMark_eq (m : Time) (ref : Nat) (s : State) :
    acceptMark m ref s = takeBoundary m ((examineSpan m s).ref.getD ref) (if s.tracker.state = .holdover then
      raiseNotice (.lockRegained ((examineSpan m s).ref.getD ref)) s.boundaryCycle (s.markAccepted m ref)
      else s.markAccepted m ref) := by
  rw [← cycleAfterBoundary_eq]
  rfl

/-- A cycle mark in LOCKED or HOLDOVER is judged against the window (R10, R11). -/
theorem takeCycleMark_locked {m : Time} {ref : Nat} {s : State} (locked : s.tracker.state.isLocked = true)
    (defined : s.tracker.ref = some ref) : takeCycleMark m s =
      if Time.after (Time.plus s.tracker.boundary (ref - ref * s.config.window / 256)) m then
        s.countTracker (fun c => { c with earlyMarks := Count.up c.earlyMarks })
      else if Time.after m (Time.plus s.tracker.boundary (ref + ref * s.config.window / 256)) then s
      else acceptMark m ref s := by
  have judged : takeCycleMark m s = markInWindow m s := by
    unfold takeCycleMark
    cases st : s.tracker.state <;> simp [st, TrackerState.isLocked] at locked ⊢
  rw [judged, markInWindow, defined]
  rfl

/-- Settles O25: an early mark, and a mark in the window. -/
theorem windowMarkTaken : Obligations.WindowMarkTaken := by
  intro m ref s locked defined
  have judged := takeCycleMark_locked (m := m) locked defined
  refine ⟨fun early => by rw [judged, if_pos early], fun opened closed => ?_⟩
  rw [if_neg (by simp [opened]), if_neg (by simp [closed])] at judged
  obtain ⟨history, captures, ref', examined, spans⟩ := examineSpan_cases m defined
  have newest : (examineSpan m s).ref.getD ref = ref' := by rw [examined]; rfl
  have accepted : s.markAccepted m ref = ({ s with tracker := ⟨.locked, history, captures, some ref', m, 0, false,
      some (.windowClose (Time.plus m (ref' + ref' * s.config.window / 256)))⟩ }).countTracker
      (fun c => { c with acceptedMarks := Count.up c.acceptedMarks }) := by
    rw [State.markAccepted, newest, examined]
    rfl
  have boundary := acceptMark_eq m ref s
  obtain ⟨tracker, lock⟩ := acceptMark_tracker m ref s
  have raises := acceptMark_raises m ref s
  rw [newest] at boundary tracker raises
  rw [judged]
  refine ⟨history, captures, ref', _, _, acceptMark_cadence m ref s, rfl, rfl, by rw [boundary, accepted], spans, ?_, lock, ?_,
    fun starts => ?_, raises⟩
  · rw [tracker, examined]
    rfl
  · rw [boundary, takeBoundary_trackerGroup, (noticed_fields _ _ _ _).2, accepted]
    rfl
  · rw [boundary]
    obtain ⟨-, origin, span, -⟩ := takeBoundary_starts m ref' (s := if s.tracker.state = .holdover then
      raiseNotice (.lockRegained ref') s.boundaryCycle (s.markAccepted m ref) else s.markAccepted m ref)
      (by rw [(noticed_fields _ _ _ _).1]; exact starts)
    exact ⟨origin, span⟩

end Sys2Proof.Machine
end

section
/-! PROOF. The walk through the program (R24, R39, R40, R47, R49, R52, R55): what becomes current when an entry is entered, and the two waits of an
entry. -/

namespace Sys2Proof.Machine

/-! ### The examination of a target -/

theorem examine_tail {b : Bank} {i : EntryIndex} (tail : (b.entry i).ending = .tail) (origin m : Time) (span fuel k : Nat) :
    examine b origin span m fuel i k = (i, k) := by
  cases fuel with
  | zero => rfl
  | succ fuel =>
    unfold examine
    rw [tail]

/-- An entry that is no TAIL is current when it ends after the moment, and else skipped (R47). -/
theorem examine_next {b : Bank} {i next : EntryIndex} {off : Nat}
    (ending : (b.entry i).ending = .timed off next ∨ ∃ settle, (b.entry i).ending = .step off settle next) (origin m : Time)
    (span fuel k : Nat) : examine b origin span m (fuel + 1) i k
      = if Time.after (Time.plus origin (off * span / 1024)) m then (i, k) else examine b origin span m fuel next (k + 1) := by
  rw [examine]
  rcases ending with h | ⟨settle, h⟩ <;> rw [h] <;> rfl

/-- The end time of an entry that is no TAIL (R47, R55). -/
theorem entryEndTime_next {e : EntryEnd} {next : EntryIndex} {off : Nat}
    (ending : e = .timed off next ∨ ∃ settle, e = .step off settle next) (origin : Time) (span : Nat) :
    entryEndTime origin span e = Time.plus origin (off * span / 1024) := by
  rcases ending with rfl | ⟨settle, rfl⟩ <;> rfl

/-- An entry with a next one is TIMED or STEP (R27). -/
theorem Bank.ending_of_nextOf {b : Bank} {i next : EntryIndex} (h : b.nextOf i = some next) :
    ∃ off, (b.entry i).ending = .timed off next ∨ ∃ settle, (b.entry i).ending = .step off settle next := by
  unfold Bank.nextOf at h
  cases ending : (b.entry i).ending with
  | timed off n =>
    rw [ending] at h
    cases h
    exact ⟨off, .inl rfl⟩
  | step off settle n =>
    rw [ending] at h
    cases h
    exact ⟨off, .inr ⟨settle, rfl⟩⟩
  | tail =>
    rw [ending] at h
    cases h

/-- Along a walk that comes to a TAIL the examination ends at an entry that ends after the moment, or at the TAIL (R24, R47). -/
theorem examine_ends {b : Bank} (origin m : Time) (span : Nat) {last : EntryIndex} (tail : (b.entry last).ending = .tail) :
    ∀ (walk : List EntryIndex) (i : EntryIndex) (fuel k : Nat), (i :: walk).length ≤ fuel + 1 →
      (i :: walk).getLast? = some last → (i :: walk).IsChain b.risesTo →
      (b.entry (examine b origin span m fuel i k).1).ending = .tail
        ∨ Time.after (entryEndTime origin span (b.entry (examine b origin span m fuel i k).1).ending) m = true := by
  intro walk
  induction walk with
  | nil =>
    intro i fuel k _ getLast _
    obtain rfl : i = last := by simpa using getLast
    rw [examine_tail tail]
    exact .inl tail
  | cons j walk ih =>
    intro i fuel k bound getLast chain
    obtain ⟨⟨next, -⟩, chain⟩ := List.isChain_cons_cons.mp chain
    obtain ⟨off, ending⟩ := Bank.ending_of_nextOf next
    obtain ⟨fuel, rfl⟩ : ∃ n, fuel = n + 1 := ⟨fuel - 1, by simp only [List.length_cons] at bound; omega⟩
    rw [examine_next ending]
    split
    · rename_i after
      exact .inr (by rwa [entryEndTime_next ending])
    · exact ih j fuel (k + 1) (by simpa using bound) (by simpa using getLast) chain

/-- From a start entry of a well-formed bank the examination ends at a TAIL or at an entry that ends after the moment (R24, R47). -/
theorem examine_startEntry {b : Bank} (sound : b.wellFormed = true) (origin m : Time) (span : Nat) (cycle : Count)
    {r : EntryIndex × Nat} (found : r = examine b origin span m 32 (startEntry b cycle) 0) :
    (b.entry r.1).ending = .tail ∨ Time.after (entryEndTime origin span (b.entry r.1).ending) m = true := by
  obtain ⟨positive, -, -⟩ := (validate_eq_none_iff b).mp (b.wellFormed_iff_validate.mp sound)
  obtain ⟨-, walk, last, walks, tail⟩ := Bank.risesToTail_of_wellFormed sound (Nat.mod_lt cycle.toNat positive)
  have bound := walks.length_le
  obtain ⟨head, getLast, -, chain⟩ := walks
  obtain ⟨rest, rfl⟩ : ∃ rest, walk = startEntry b cycle :: rest := ⟨walk.tail, (List.cons_head?_tail head).symm⟩
  rw [found]
  exact examine_ends origin m span tail rest (startEntry b cycle) 32 0 (by omega) getLast chain

/-! ### Entries -/

/-- The deadline of an entry is its end time, unless it is a TAIL (R47). -/
theorem entryDeadlineOf_eq (e : EntryEnd) (t : Time) : entryDeadlineOf e t = match e with | .tail => none | _ => some t := by
  cases e <;> rfl

/-- What RUNNING presents once an entry is entered: its gate sets, and its end time as the guard limit when it is guarded (R39). -/
theorem runningPresentation_enterEntry (i : EntryIndex) (m : Time) (s : State) {e : Entry}
    (current : (enterEntry i m s).currentEntry = e) : runningPresentation (enterEntry i m s)
      = if e.guarded then
          ⟨⟨e.gates.a, some (entryEndTime s.sequencer.origin s.sequencer.span e.ending)⟩,
            ⟨e.gates.b, some (entryEndTime s.sequencer.origin s.sequencer.span e.ending)⟩⟩
        else ⟨⟨e.gates.a, none⟩, ⟨e.gates.b, none⟩⟩ := by
  have ends : (enterEntry i m s).sequencer.endTime = entryEndTime s.sequencer.origin s.sequencer.span e.ending := by
    rw [← current]
    rfl
  unfold runningPresentation
  simp only [current, ends]
  split <;> rfl

/-- Settles O26: the examination, the end times, and the entry that becomes current. -/
theorem entryEntered : Obligations.EntryEntered := by
  refine ⟨fun origin span => ⟨fun _ _ => rfl, fun _ _ _ => rfl, rfl⟩,
    fun b origin m span => ⟨fun fuel i k tail => examine_tail tail origin m span fuel k,
      fun fuel i k off next ending => examine_next ending origin m span fuel k,
      fun sound cycle r found => examine_startEntry sound origin m span cycle found⟩, leaveEntry_eq, ?_⟩
  rintro i m s r e rfl rfl
  refine ⟨rfl, rfl, rfl, rfl, rfl, rfl, ?_, rfl, runningPresentation_enterEntry i m s rfl⟩
  simp only [enterEntry, State.countSequencer, entryDeadlineOf_eq] <;> rfl

/-! ### The waits of an entry -/

theorem exec_entryDeadline {s : State} (released : s.inReset = false) : exec .entryDeadline s
    = .next (if s.sequencer.state = .running ∧ s.sequencer.deadline = some s.time then entryDeadlineTaken s else s) := by
  refine congrArg Host.Outcome.next ((outsideReset_released released _).trans ?_)
  simp [waitDue]

theorem exec_settleDue {s : State} (released : s.inReset = false) : exec .settleDue s
    = .next (if s.sequencer.state = .running ∧ s.sequencer.settle = some s.time then settleTaken s else s) := by
  refine congrArg Host.Outcome.next ((outsideReset_released released _).trans ?_)
  simp [waitDue]

/-- A STEP entry that ends with no mark seen and no transition pending has timed out (R49). -/
def State.stepMissed (s : State) : Prop :=
  match s.currentEntry.ending with
  | .step _ _ _ => s.sequencer.pending = none ∧ s.sequencer.stepSeen = false
  | _ => False

/-- The state in which the deadline's next entry is entered: a step timeout is counted (R49). -/
def State.timeoutCounted (s : State) : State :=
  match s.currentEntry.ending with
  | .step _ _ _ => if s.sequencer.pending = none ∧ s.sequencer.stepSeen = false then
      s.countSequencer (fun c => { c with stepTimeouts := Count.up c.stepTimeouts }) else s
  | _ => s

theorem State.timeoutCounted_missed {s : State} (h : s.stepMissed) :
    s.timeoutCounted = s.countSequencer (fun c => { c with stepTimeouts := Count.up c.stepTimeouts }) := by
  unfold State.stepMissed at h
  unfold State.timeoutCounted
  cases e : s.currentEntry.ending <;> simp only [e] at h ⊢
  exact if_pos h

theorem State.timeoutCounted_kept {s : State} (h : ¬s.stepMissed) : s.timeoutCounted = s := by
  unfold State.stepMissed at h
  unfold State.timeoutCounted
  cases e : s.currentEntry.ending <;> simp only [e] at h ⊢
  exact if_neg h

/-- The step timeout is all that the state before the next entry differs in. -/
theorem State.timeoutCounted_eq (s : State) : ∃ n, s.timeoutCounted =
    { s with counters := { s.counters with sequencer := { s.counters.sequencer with stepTimeouts := n } } } := by
  by_cases h : s.stepMissed
  · exact ⟨_, State.timeoutCounted_missed h⟩
  · exact ⟨s.counters.sequencer.stepTimeouts, State.timeoutCounted_kept h⟩

theorem entryDeadlineTaken_next {s : State} {next : EntryIndex}
    (ending : (∃ off, s.currentEntry.ending = .timed off next) ∨ ∃ off settle, s.currentEntry.ending = .step off settle next) :
    entryDeadlineTaken s = moveTo next s.time s.timeoutCounted := by
  unfold entryDeadlineTaken State.timeoutCounted
  rcases ending with ⟨off, e⟩ | ⟨off, settle, e⟩ <;> simp [e]

theorem timeoutCounted_stepTimeouts (s : State) : s.timeoutCounted.counters.sequencer.stepTimeouts
    = match s.currentEntry.ending with
      | .step _ _ _ => if s.sequencer.pending = none ∧ s.sequencer.stepSeen = false then
          Count.up s.counters.sequencer.stepTimeouts else s.counters.sequencer.stepTimeouts
      | _ => s.counters.sequencer.stepTimeouts := by
  unfold State.timeoutCounted
  cases s.currentEntry.ending with
  | timed | tail => rfl
  | step off settle next =>
    simp only
    split <;> rfl

/-- Settles O27: the deadline enters the next entry at E, after a step timeout that it counts. -/
theorem entryDeadlineTaken_holds : Obligations.EntryDeadlineTaken := by
  refine fun s released => ⟨fun next running due ending => ?_, fun early => ?_⟩
  · obtain ⟨c, counted⟩ := s.timeoutCounted_eq
    have groups := (moveTo_groups next s.time s.timeoutCounted).2
    have timeouts := timeoutCounted_stepTimeouts s
    refine ⟨s.stepMissed, s.timeoutCounted, enterEntry next s.time s.timeoutCounted, moveTo next s.time s.timeoutCounted, ?_, ?_, ?_,
      ?_, ?_, rfl, State.timeoutCounted_missed, State.timeoutCounted_kept, rfl, rfl, ?_, ?_, ?_, ?_⟩
    · rw [exec_entryDeadline released, if_pos ⟨running, due⟩, entryDeadlineTaken_next ending]
    · exact State.sameButWalk.trans (t := s.timeoutCounted) (by rw [counted]; rfl) (moveTo_walk _ _ _)
    · rw [moveTo_programs, counted]
    · rw [moveTo_pins, counted]
    · rw [moveTo_notices, counted]
    · rintro r rfl
      rw [groups, counted]
    · rw [moveTo_sequencer, counted]
      rfl
    · intro agree
      exact (moveTo_keepsOutputs next s.time s.timeoutCounted).agree (by rw [counted]; exact agree)
    · rw [groups]
      exact timeouts
  · rw [exec_entryDeadline released, if_neg fun h => early h.2]

/-- Settles O28: the settle due enters the pending transition's target at that moment. -/
theorem settleDueTaken : Obligations.SettleDueTaken := by
  refine fun s released => ⟨fun x running due pending => ?_, fun early => ?_⟩
  · have groups := (moveTo_groups x.target s.time s).2
    refine ⟨enterEntry x.target s.time s, moveTo x.target s.time s, ?_, moveTo_walk _ _ _, moveTo_programs _ _ _, moveTo_pins _ _ _,
      moveTo_notices _ _ _, rfl, rfl, ?_, moveTo_sequencer _ _ _, (moveTo_keepsOutputs x.target s.time s).agree, ?_⟩
    · rw [exec_settleDue released, if_pos ⟨running, due⟩, settleTaken, pending]
    · rintro r rfl
      exact groups
    · rw [groups]
  · rw [exec_settleDue released, if_neg fun h => early h.2]

end Sys2Proof.Machine
end

section
/-! PROOF. The management agent's answers (R132 to R139, R149, R151, R183 to R185): the header checks, the bytes of a frame that the part builds, the
response and its counts, and the owner and sequence checks. -/

namespace Sys2Proof.Machine

/-! ### The rows of requests (section 12.1) -/

/-- A code is unknown when it is none of the 18 of section 12.1. -/
theorem knownCode_eq_false_iff (code : Byte) : knownCode code = false ↔ code ∉ ([0x01, 0x02, 0x03, 0x04, 0x05, 0x10, 0x11, 0x20,
    0x21, 0x22, 0x23, 0x24, 0x30, 0x31, 0x40, 0x50, 0x51, 0x52] : List Byte) := by
  simp only [knownCode, decide_eq_false_iff_not, List.mem_cons, List.not_mem_nil, or_false, ← BitVec.toNat_inj]
  rfl

/-- The identifiers of the quotas have the row WRITE_QUOTA (R120). -/
theorem writeConfigRow_quota {id : Byte} (value : List Byte)
    (h : 0x40 ≤ id.toNat ∧ id.toNat ≤ 0x48 ∨ 0x50 ≤ id.toNat ∧ id.toNat ≤ 0x58) : writeConfigRow (id :: value) = .writeQuota := by
  have item : ∃ p q, configIdOf id.toNat = some (.quota p q) := by
    rcases h with h | h
    · exact ⟨.a, ⟨id.toNat - 0x40, by omega⟩, by
        rw [← (configIdOf_quota _).1]
        exact congrArg configIdOf (by simp only; omega)⟩
    · exact ⟨.b, ⟨id.toNat - 0x50, by omega⟩, by
        rw [← (configIdOf_quota _).2]
        exact congrArg configIdOf (by simp only; omega)⟩
  obtain ⟨p, q, known⟩ := item
  simp only [writeConfigRow, known]

theorem writeConfigRow_unknown {id : Byte} (value : List Byte) (h : configIdOf id.toNat = none) :
    writeConfigRow (id :: value) = .writeConfig := by
  simp only [writeConfigRow, h]

/-! ### The header checks (R133) -/

section
variable {s : State} {slot : Slot} {rest : List Slot} (moment : serviceOpen s = true) (oldest : s.agent.fifo = slot :: rest)
include moment oldest

/-- At a service moment the oldest request is taken by the event of its row (R132). -/
theorem takeRequest_oldest (handle : Slot → State → State) :
    takeRequest (slotRow slot) handle s = handle slot (takeSlot rest s) := by
  simp [takeRequest, moment, oldest]

/-- A request that a header check refuses is answered so and is not executed, whatever its row (R133). -/
theorem exec_refused {a : Answer} (long : isShort slot = false) (refused : headerRefusal (requestOf slot) = some a) :
    exec (slotRow slot) s = .next (respond (requestOf slot) a (takeSlot rest s)) := by
  have served (judge : Request → State → Verdict) :
      takeRequest (slotRow slot) (fun slot t => serveRequest judge (requestOf slot) t) s
        = respond (requestOf slot) a (takeSlot rest s) := by
    rw [takeRequest_oldest moment oldest, serveRequest, refused]
  have row : slotRow slot ∈ openRows ++ ownerOnlyRows := by
    rw [slotRow, long]
    exact requestRow_mem _
  rcases List.mem_append.mp row with row | row
  · obtain ⟨run, means⟩ := exec_open _ row s
    exact means.trans (congrArg _ (served run))
  · obtain ⟨run, means⟩ := exec_owned _ row s
    exact means.trans (congrArg _ (served (judgeOwner run)))

theorem exec_shortFrameDropped (short : isShort slot = true) : exec .shortFrameDropped s = .next
    ((takeSlot rest s).countAgent (fun c => { c with shortFrames := Count.up c.shortFrames })) := by
  have row : slotRow slot = .shortFrameDropped := if_pos short
  exact congrArg Host.Outcome.next (row ▸ takeRequest_oldest moment oldest _)

end

theorem headerRefusal_version {r : Request} (h : r.version ≠ 1) : headerRefusal r = some (Answer.refuse .badVersion) := if_pos h

theorem headerRefusal_code {r : Request} (version : r.version = 1) (unknown : knownCode r.code = false) :
    headerRefusal r = some (Answer.refuse .badCode) := by
  simp [headerRefusal, version, unknown]

/-- A flag that the request header does not define, in any position but that of CLEAR (R133). -/
theorem undefinedFlags_of_set {flags : Word16} {i : Nat} (low : i < 16) (other : i ≠ 0) (set : flags.getLsbD i = true) :
    undefinedFlags flags = true := by
  have mask : ∀ i < 16, i ≠ 0 → (0xFFFE#16).getLsbD i = true := by decide
  unfold undefinedFlags
  rw [bne_iff_ne]
  intro none
  have bit := congrArg (BitVec.getLsbD · i) none
  simp [set, mask i low other] at bit

theorem headerRefusal_flags {r : Request} (version : r.version = 1) (known : knownCode r.code = true)
    (h : (∃ i < 16, i ≠ 0 ∧ r.flags.getLsbD i = true) ∨ (r.flags.getLsbD 0 = true ∧ r.code ≠ 0x40)) :
    headerRefusal r = some (Answer.badArgument .badValue) := by
  have flags : (undefinedFlags r.flags || (clearFlag r.flags && r.code != codeReadCounters)) = true := by
    rcases h with ⟨i, low, other, set⟩ | ⟨clear, code⟩
    · rw [undefinedFlags_of_set low other set, Bool.true_or]
    · have other : (r.code != codeReadCounters) = true := bne_iff_ne.mpr code
      rw [clearFlag, clear, other, Bool.and_true, Bool.or_true]
  simp [headerRefusal, version, known, flags]

/-- Settles O33: the fields and the row of a request, and the checks of its header in their order. -/
theorem headerChecksInOrder : Obligations.HeaderChecksInOrder := by
  refine ⟨?fields, fun r => ⟨?codes, rfl, rfl, rfl, ?badCode⟩, fun id value => ⟨?items, rfl, rfl, writeConfigRow_quota value,
    writeConfigRow_unknown value, rfl⟩, fun s slot rest moment oldest short => exec_shortFrameDropped moment oldest short,
    fun s slot rest moment oldest long => ⟨fun version => ?version, fun version unknown => ?code, fun version known flags => ?flags⟩⟩
  case fields =>
    rintro slot _ _ rfl rfl
    refine ⟨?_, rfl, rfl⟩
    simp only [isShort, Bool.or_eq_true, decide_eq_true_eq, or_assoc]
    exact Iff.rfl
  case codes => rfl
  case badCode => rw [requestRow_badCode, knownCode_eq_false_iff]
  case items => rfl
  case version => exact exec_refused moment oldest long (headerRefusal_version version)
  all_goals have row : slotRow slot = requestRow (requestOf slot) := by rw [slotRow, long]; rfl
  case code =>
    rw [← unknown]
    rw [row] at unknown
    exact exec_refused moment oldest long (headerRefusal_code version ((requestRow_badCode _).mp unknown))
  case flags =>
    rw [row] at known
    have code : knownCode (requestOf slot).code = true := by
      rw [← Bool.not_eq_false]
      exact fun unknown => known ((requestRow_badCode _).mpr unknown)
    exact exec_refused moment oldest long (headerRefusal_flags version code flags)

/-! ### The frames that the part builds -/

/-- A frame that the part builds: the two addresses, the management type, a body, padding and the check sequence (R138, R179). -/
def builtFrame (destination source : Mac) (type : Word16) (body : List Byte) : List Byte :=
  closeFrame (bigEndian 6 destination.toNat ++ (bigEndian 6 source.toNat ++ (bigEndian 2 type.toNat ++ body)))

/-- A word of whole bytes is read back from them. -/
theorem numberOf_bigEndian_toNat {w n : Nat} (x : BitVec w) (h : 2 ^ w = 256 ^ n) : numberOf (bigEndian n x.toNat) = x.toNat :=
  numberOf_bigEndian n _ (h ▸ x.isLt)

/-- What closes a frame stands after its content. -/
theorem closeFrame_append (content : List Byte) : ∃ tail, closeFrame content = content ++ tail := by
  unfold closeFrame
  exact ⟨_, List.append_assoc _ _ _⟩

/-- Between the content and the check sequence of a built frame stand zeros (R185). -/
theorem closeFrame_padding (content : List Byte) {i : Nat} (low : content.length ≤ i) (high : i < (closeFrame content).length - 4) :
    (closeFrame content)[i]? = some 0 := by
  unfold closeFrame at *
  simp only [List.length_append, List.length_replicate, checkSequence_length] at high
  rw [List.getElem?_append_left (by simp only [List.length_append, List.length_replicate]; omega),
    List.getElem?_append_right low, List.getElem?_replicate]
  simp only [Option.ite_none_right_eq_some, and_true]
  omega

section
variable (destination source : Mac) (type : Word16) (body : List Byte)

theorem builtFrame_addresses : (frameFields (builtFrame destination source type body)).destination = destination
    ∧ (frameFields (builtFrame destination source type body)).source = source := by
  obtain ⟨tail, e⟩ := closeFrame_append
    (bigEndian 6 destination.toNat ++ (bigEndian 6 source.toNat ++ (bigEndian 2 type.toNat ++ body)))
  obtain ⟨d, s⟩ := frameFields_addresses (builtFrame destination source type body)
  rw [builtFrame, e] at *
  rw [← BitVec.toNat_inj, ← BitVec.toNat_inj, d, s]
  constructor
  · rw [List.append_assoc]
    exact (fieldAt_middle [] _ _ 0 6 rfl (bigEndian_length _ _)).trans (numberOf_bigEndian_toNat _ rfl)
  · rw [List.append_assoc, List.append_assoc]
    exact (fieldAt_middle _ _ _ 6 6 (bigEndian_length _ _) (bigEndian_length _ _)).trans (numberOf_bigEndian_toNat _ rfl)

/-- The management type is no tag, so a built frame is untagged with that type (R83, R143). -/
theorem builtFrame_type (untagged : type ≠ 0x8100) :
    (frameFields (builtFrame destination source type body)).etherType = type
      ∧ (frameFields (builtFrame destination source type body)).tag = none := by
  obtain ⟨tail, e⟩ := closeFrame_append
    (bigEndian 6 destination.toNat ++ (bigEndian 6 source.toNat ++ (bigEndian 2 type.toNat ++ body)))
  have field : fieldAt (builtFrame destination source type body) 12 2 = type.toNat := by
    rw [builtFrame, e, show bigEndian 6 destination.toNat ++ (bigEndian 6 source.toNat ++ (bigEndian 2 type.toNat ++ body)) ++ tail
        = (bigEndian 6 destination.toNat ++ bigEndian 6 source.toNat) ++ (bigEndian 2 type.toNat ++ (body ++ tail)) by
      simp only [List.append_assoc]]
    exact (fieldAt_middle _ _ _ 12 2 (by simp) (bigEndian_length _ _)).trans (numberOf_bigEndian_toNat _ rfl)
  obtain ⟨tag, read, -⟩ := frameFields_untagged (bytes := builtFrame destination source type body) (by
    rw [field]
    exact fun h => untagged (BitVec.toNat_inj.mp h))
  exact ⟨BitVec.toNat_inj.mp (read.trans field), tag⟩

/-- The body stands at offset 14 (section 12.1). -/
theorem builtFrame_body : ((builtFrame destination source type body).drop 14).take body.length = body := by
  obtain ⟨tail, e⟩ := closeFrame_append
    (bigEndian 6 destination.toNat ++ (bigEndian 6 source.toNat ++ (bigEndian 2 type.toNat ++ body)))
  have front : (bigEndian 6 destination.toNat ++ (bigEndian 6 source.toNat ++ bigEndian 2 type.toNat)).length = 14 := by simp
  rw [builtFrame, e, show bigEndian 6 destination.toNat ++ (bigEndian 6 source.toNat ++ (bigEndian 2 type.toNat ++ body)) ++ tail
      = (bigEndian 6 destination.toNat ++ (bigEndian 6 source.toNat ++ bigEndian 2 type.toNat)) ++ (body ++ tail) by
    simp only [List.append_assoc], ← front, List.drop_left, List.take_left]

theorem builtFrame_length : (builtFrame destination source type body).length = max 64 (14 + body.length + 4) := by
  rw [builtFrame, closeFrame_length]
  simp only [List.length_append, bigEndian_length]
  omega

theorem builtFrame_passes : checkPasses (builtFrame destination source type body) = true := closeFrame_passes _

theorem builtFrame_padding {i : Nat} (low : 14 + body.length ≤ i)
    (high : i < (builtFrame destination source type body).length - 4) :
    (builtFrame destination source type body)[i]? = some 0 := by
  refine closeFrame_padding _ ?_ high
  simp only [List.length_append, bigEndian_length]
  omega

end

/-! ### The response -/

/-- The body of a response: the header of section 12.1 and the result (R138). -/
def responseBody (r : Request) (a : Answer) (s : State) : List Byte :=
  [1, r.code] ++ bigEndian 2 (12 + a.result.length) ++ bigEndian 2 r.sequence.toNat ++ bigEndian 2 (responseSession s).toNat
    ++ bigEndian 2 a.flags.toNat ++ [a.status.byte, 0] ++ a.result

theorem responseBody_length (r : Request) (a : Answer) (s : State) : (responseBody r a s).length = 12 + a.result.length := by
  simp [responseBody]
  omega

theorem responseFrame_eq (r : Request) (a : Answer) (s : State) :
    responseFrame r a s = builtFrame r.source s.config.stationAddress s.config.managementType (responseBody r a s) := by
  simp only [responseFrame, builtFrame, responseBody, List.append_assoc]

/-- An evaluation counts nothing of the agent group. -/
theorem evaluate_agentGroup (p : Port) (s : State) : (evaluate p s).counters.agent = s.counters.agent := by
  by_cases made : (s.sched p).inFlight = none ∧ (s.port p).link = .up
  · obtain ⟨-, -, -, -, -, counters, -⟩ := (evaluationStartsFirstPassingHead.2 p s).1 made.1 made.2
    rw [counters]
    rfl
  · rw [evaluate_not_made]
    cases link : (s.port p).link with
    | down => exact .inr rfl
    | up => exact .inl fun idle => made ⟨idle, link⟩

theorem acceptFrame_agentGroup (p : Port) (q : QueueName) (bytes : List Byte) (s : State) :
    (acceptFrame p q bytes s).counters.agent = s.counters.agent := by
  unfold acceptFrame
  split
  · rfl
  · simp only
    split
    · exact evaluate_agentGroup p _
    · rfl

/-- A refused response is counted lost (R139, R149). -/
theorem offerResponse_agentGroup (p : Port) (bytes : List Byte) (s : State) :
    (offerResponse p bytes s).counters.agent = { s.counters.agent with
      responsesLost := if admissionVerdict p queueM bytes.length s = none then s.counters.agent.responsesLost
        else Count.up s.counters.agent.responsesLost } := by
  cases judged : admissionVerdict p queueM bytes.length s with
  | none =>
    rw [offerResponse_accepted judged, acceptFrame_agentGroup]
    rfl
  | some reason =>
    rw [offerResponse_refused judged]
    cases reason <;> rfl

theorem offerResponse_groups (p : Port) (bytes : List Byte) (s : State) :
    (offerResponse p bytes s).counters.tracker = s.counters.tracker
      ∧ (offerResponse p bytes s).counters.sequencer = s.counters.sequencer :=
  (noticeKeeps_groups _ _).toTrafficKeeps.offerResponse p bytes s ⟨rfl, rfl⟩

/-- Settles O34: the encodings, the counts of an answered request, and the bytes of its response. -/
theorem responseBuiltAndOffered : Obligations.ResponseBuiltAndOffered := by
  refine ⟨⟨rfl, fun _ _ => ⟨rfl, fun _ _ => ⟨rfl, rfl⟩⟩⟩, fun r a s => ?offered, fun r a s _ => ?bytes⟩
  case offered =>
    obtain ⟨tracker, sequencer⟩ := offerResponse_groups r.port (responseFrame r a s) s
    refine ⟨respond_same r a s, ?_, rfl, tracker, sequencer, rfl, rfl⟩
    rw [respond, countAnswered, State.countAgent]
    simp only [offerResponse_agentGroup]
  case bytes =>
    obtain ⟨destination, source⟩ := builtFrame_addresses r.source s.config.stationAddress s.config.managementType (responseBody r a s)
    have body := builtFrame_body r.source s.config.stationAddress s.config.managementType (responseBody r a s)
    have length := builtFrame_length r.source s.config.stationAddress s.config.managementType (responseBody r a s)
    rw [responseBody_length] at body length
    rw [responseFrame_eq]
    refine ⟨length.trans (by omega), destination, source, builtFrame_type _ _ _ _, body, fun i low high => ?_,
      builtFrame_passes _ _ _ _⟩
    exact builtFrame_padding _ _ _ _ (by rw [responseBody_length]; omega) high

/-! ### Requests of the owner -/

/-- A sender that is not the owner, or another session number, or no session (R135). -/
theorem ownerCheck_eq_false {r : Request} {s : State} (h : s.agent.session.isOpen = false
    ∨ r.source ≠ s.agent.session.ownerAddress ∨ r.session ≠ s.agent.session.number) : ownerCheck r s = false := by
  unfold ownerCheck
  rcases h with h | h | h <;> simp [h]

/-- A repeated sequence with the recorded code is a duplicate (R136). -/
theorem duplicateOf_recorded {r : Request} {s : State} {x : Replay} (replay : s.agent.replay = some x)
    (sequence : r.sequence = s.agent.session.lastSequence) (code : r.code = x.code) : duplicateOf r s = some x := by
  simp [duplicateOf, replay, sequence, code]

theorem duplicateOf_other {r : Request} {s : State} (h : s.agent.replay = none ∨ r.sequence ≠ s.agent.session.lastSequence
    ∨ ∃ x, s.agent.replay = some x ∧ r.code ≠ x.code) : duplicateOf r s = none := by
  unfold duplicateOf
  rcases h with none | sequence | ⟨x, replay, code⟩
  · rw [none]
  · split
    · exact if_neg fun k => sequence k.1
    · rfl
  · rw [replay]
    exact if_neg fun k => code k.2

/-- The owner's requests with a fixed size of arguments are judged for it first (R183). -/
theorem exec_ownerArguments (s : State) :
    ∀ x ∈ ownerArguments, ∃ run, exec x.1 s = takeOwned x.1 (withArguments x.2 run) s := by
  have empty : ∀ row run, takeOwned row (withoutArguments run) s = takeOwned row (withArguments 0 run) s := fun row run => by
    rw [withoutArguments_eq]
  simp only [ownerArguments, List.forall_mem_cons, List.not_mem_nil, false_imp_iff, implies_true, and_true]
  exact ⟨⟨runResetTraffic, rfl⟩, ⟨runCommit, empty _ _⟩, ⟨runCancelCommit, empty _ _⟩, ⟨runHalt, empty _ _⟩,
    ⟨runResume, empty _ _⟩, ⟨runReadCountersClear, rfl⟩, ⟨runRenew, rfl⟩, ⟨runCloseSession, empty _ _⟩⟩

/-- Settles O35: the owner check, the sequence check, the length of the arguments, and what is recorded. -/
theorem ownerRequestsGuarded : Obligations.OwnerRequestsGuarded := by
  refine ⟨⟨fun row s r a u => ⟨Iff.rfl, Iff.rfl⟩, ?lease⟩, fun row mem s slot rest serves other => ?notOwner,
    fun row mem s slot rest serves owner sequence => ?outOfSequence, fun x mem s slot rest serves owner length => ?badLength⟩
  case lease =>
    rintro s rest _ rfl
    rfl
  case notOwner =>
    obtain ⟨run, means⟩ := exec_owned row mem s
    exact means.trans (takeOwned_notOwner serves (ownerCheck_eq_false other))
  case outOfSequence =>
    obtain ⟨run, means⟩ := exec_owned row mem s
    have answered := means.trans (takeOwned_outOfSequence (run := run) serves owner sequence)
    refine ⟨fun x replay same code => ?_, fun other => ?_⟩
    · rw [duplicateOf_recorded replay same code] at answered
      exact answered
    · rw [duplicateOf_other other] at answered
      exact answered
  case badLength =>
    obtain ⟨run, means⟩ := exec_ownerArguments s x mem
    exact means.trans (takeOwned_answer serves owner (if_neg length))

end Sys2Proof.Machine
end

section
/-! PROOF. HALT and RESUME (R56, R57), the counters (R173 to R175), the session requests (R151 to R157) and the notices (R177 to R180). -/

namespace Sys2Proof.Machine

/-! ### HALT and RESUME -/

section
variable {s : State} {slot : Slot} {rest : List Slot}

/-- HALT freezes the presented gate sets and keeps the walk's place (R56). -/
theorem sequencerHalt_eq (s : State) : sequencerHalt s = presentBoth
    ⟨⟨s.sequencer.presentation.a.gates, none⟩, ⟨s.sequencer.presentation.b.gates, none⟩⟩
    { leaveEntry s with sequencer := { (leaveEntry s).sequencer with state := .halted } } := by
  simp [sequencerHalt]

/-- What HALT leaves of the sequencer, the programs, the pins, the notices and the counters (R40, R52, R56). -/
theorem sequencerHalt_fields (s : State) :
    (sequencerHalt s).sequencer = { s.sequencer with
        state := .halted, deadline := none, settle := none, stepSeen := false, pending := none
        presentation := ⟨⟨s.sequencer.presentation.a.gates, none⟩, ⟨s.sequencer.presentation.b.gates, none⟩⟩ }
      ∧ (sequencerHalt s).programs = s.programs ∧ (sequencerHalt s).pins = s.pins ∧ (sequencerHalt s).notices = s.notices
      ∧ (sequencerHalt s).counters.sequencer = { s.counters.sequencer with
          settleCancels := if s.sequencer.pending = none then s.counters.sequencer.settleCancels
            else Count.up s.counters.sequencer.settleCancels } := by
  simp [sequencerHalt_eq]

theorem runHalt_running {r : Request} {s : State} (h : s.sequencer.state = .running) :
    runHalt r s = .answer (sequencerHalt s) (Answer.okay []) := if_pos h

theorem runHalt_other {r : Request} {s : State} (h : s.sequencer.state ≠ .running) :
    runHalt r s = .answer s (Answer.refuse .wrongState) := if_neg h

theorem runResume_halted {r : Request} {s : State} (h : s.sequencer.state = .halted) : runResume r s
    = .answer { s with sequencer := { s.sequencer with state := .rejoining } } (Answer.okay []) := if_pos h

theorem runResume_other {r : Request} {s : State} (h : s.sequencer.state ≠ .halted) :
    runResume r s = .answer s (Answer.refuse .wrongState) := if_neg h

end

/-- Settles O45, by the state of the sequencer, which taking the request leaves alone. -/
theorem haltAndResume : Obligations.HaltAndResume := by
  rintro s slot rest r rfl owner empty
  refine ⟨fun serves => ⟨fun running => ?halt, fun other => ?refused⟩, fun serves => ⟨fun halted => ?resume, fun other => ?refused'⟩⟩
  case halt =>
    obtain ⟨sequencer, programs, pins, notices, counters⟩ := sequencerHalt_fields (s.owned rest)
    exact ⟨_, _, sequencerHalt (s.owned rest), executes_withoutArguments rfl serves owner empty (runHalt_running running), rfl, rfl,
      sequencerHalt_eq _, sequencerHalt_walk _, sequencer, programs, pins, notices, (sequencerHalt_keepsOutputs (s.owned rest)).agree,
      counters⟩
  case refused => exact executes_withoutArguments rfl serves owner empty (runHalt_other other)
  case resume => exact executes_withoutArguments rfl serves owner empty (runResume_halted halted)
  case refused' => exact executes_withoutArguments rfl serves owner empty (runResume_other other)

/-! ### Counters -/

/-- The 23 selectors (section 12.4). -/
theorem groupOf_eq_some_iff (n : Nat) (g : Group) : groupOf n = some g ↔
    (n = 0x00 ∧ g = .port .a) ∨ (n = 0x01 ∧ g = .port .b)
      ∨ (∃ q : QueueName, n = 0x10 + q.val ∧ g = .queue .a q) ∨ (∃ q : QueueName, n = 0x20 + q.val ∧ g = .queue .b q)
      ∨ (n = 0x30 ∧ g = .tracker) ∨ (n = 0x31 ∧ g = .sequencer) ∨ (n = 0x32 ∧ g = .agent) := by
  constructor
  · intro named
    unfold groupOf at named
    split at named
    · exact .inl ⟨‹_›, (Option.some.inj named).symm⟩
    split at named
    · exact .inr (.inl ⟨‹_›, (Option.some.inj named).symm⟩)
    split at named
    · rename_i range
      refine .inr (.inr (.inl ⟨Fin.ofNat 9 (n - 0x10), ?_, (Option.some.inj named).symm⟩))
      rw [Fin.val_ofNat]
      omega
    split at named
    · rename_i range
      refine .inr (.inr (.inr (.inl ⟨Fin.ofNat 9 (n - 0x20), ?_, (Option.some.inj named).symm⟩)))
      rw [Fin.val_ofNat]
      omega
    split at named
    · exact .inr (.inr (.inr (.inr (.inl ⟨‹_›, (Option.some.inj named).symm⟩))))
    split at named
    · exact .inr (.inr (.inr (.inr (.inr (.inl ⟨‹_›, (Option.some.inj named).symm⟩)))))
    split at named
    · exact .inr (.inr (.inr (.inr (.inr (.inr ⟨‹_›, (Option.some.inj named).symm⟩)))))
    · cases named
  · have queues : ∀ q : QueueName, groupOf (0x10 + q.val) = some (.queue .a q) ∧ groupOf (0x20 + q.val) = some (.queue .b q) := by
      decide
    rintro (⟨rfl, rfl⟩ | ⟨rfl, rfl⟩ | ⟨q, rfl, rfl⟩ | ⟨q, rfl, rfl⟩ | ⟨rfl, rfl⟩ | ⟨rfl, rfl⟩ | ⟨rfl, rfl⟩)
    · rfl
    · rfl
    · exact (queues q).1
    · exact (queues q).2
    · rfl
    · rfl
    · rfl

/-- A cleared group reads as zeros (R175). -/
theorem groupValues_clearGroup_same (c : Counters) (g : Group) : ∀ v ∈ groupValues (clearGroup c g) g, v = 0 := by
  cases g with
  | port p => simp [groupValues, clearGroup]
  | queue p q => simp [groupValues, clearGroup, Pair.get_modify]
  | tracker | sequencer | agent => simp [groupValues, clearGroup]

/-- A cleared group leaves the others (R175). -/
theorem groupValues_clearGroup_other (c : Counters) {g h : Group} (other : h ≠ g) :
    groupValues (clearGroup c g) h = groupValues c h := by
  cases g with
  | port p =>
    cases h with
    | port r =>
      have apart : r ≠ p := fun e => other (congrArg Group.port e)
      simp only [groupValues, clearGroup, Pair.get_set, if_neg apart]
    | queue | tracker | sequencer | agent => rfl
  | queue p q =>
    cases h with
    | queue r u =>
      simp only [groupValues, clearGroup, Pair.get_modify]
      split
      · rename_i same
        have apart : q.val ≠ u.val := fun e => other (by rw [same, Fin.ext e])
        simp only [Fin.getElem_fin, Vector.getElem_set, if_neg apart, same]
      · rfl
    | port | tracker | sequencer | agent => rfl
  | tracker =>
    cases h with
    | tracker => exact absurd rfl other
    | port | queue | sequencer | agent => rfl
  | sequencer =>
    cases h with
    | sequencer => exact absurd rfl other
    | port | queue | tracker | agent => rfl
  | agent =>
    cases h with
    | agent => exact absurd rfl other
    | port | queue | tracker | sequencer => rfl

/-- A counter rises by one and stays at its highest value (R173). -/
theorem Count.up_toNat (c : Count) : (Count.up c).toNat = min 4294967295 (c.toNat + 1) := by
  have bound := c.isLt
  unfold Count.up
  split
  · rename_i full
    rw [full]
    rfl
  · rename_i below
    have low : c.toNat ≠ 4294967295 := fun e => below (BitVec.toNat_inj.mp e)
    rw [BitVec.toNat_add, show (1 : Count).toNat = 1 from rfl]
    omega

/-- An owner's request with the arguments it should have is executed as it runs (R135, R183). -/
theorem executes_withArguments {row : Instr} {run : Request → State → Verdict} {s u : State} {slot : Slot} {rest : List Slot}
    {a : Answer} {n : Nat} (means : exec row s = takeOwned row (withArguments n run) s) (h : s.serves row slot rest)
    (owner : s.ownersNext (requestOf slot)) (length : (requestOf slot).args.length = n)
    (answer : run (requestOf slot) (s.owned rest) = .answer u a) : executes row s (requestOf slot) a u :=
  means.trans (takeOwned_answer h owner ((if_pos length).trans answer))

theorem runReadCountersClear_known {r : Request} {selector : Byte} {g : Group} {s : State} (args : r.args = [selector])
    (named : groupOf selector.toNat = some g) : runReadCountersClear r s
      = .answer { s with counters := clearGroup s.counters g }
        (Answer.okay (selector :: (groupValues s.counters g).flatMap (fun v => bigEndian 4 v.toNat))) := by
  simp only [runReadCountersClear, args, fieldAt_first, named, groupResult, BitVec.ofNat_toNat, BitVec.setWidth_eq]

theorem runReadCountersClear_unknown {r : Request} {selector : Byte} {s : State} (args : r.args = [selector])
    (none : groupOf selector.toNat = none) : runReadCountersClear r s = badValue s := by
  simp only [runReadCountersClear, args, fieldAt_first, none]

/-- Settles O46: the groups, the read that clears one, and the saturation of a counter. -/
theorem countersClearedAndSaturating : Obligations.CountersClearedAndSaturating := by
  refine ⟨⟨groupOf_eq_some_iff, ?values⟩, ?cleared, fun c => ?count⟩
  case values =>
    intro c p q
    refine ⟨?_, ?_, rfl, rfl, rfl⟩
    · rintro _ rfl
      rfl
    · rintro _ rfl
      rfl
  case cleared =>
    rintro s slot rest r selector serves rfl owner args
    have one : (requestOf slot).args.length = 1 := by rw [args]; rfl
    refine ⟨fun g named => ⟨clearGroup s.counters g, ?_, groupValues_clearGroup_same _ g, fun h => groupValues_clearGroup_other _⟩,
      fun none => ?_⟩
    · exact executes_withArguments rfl serves owner one (runReadCountersClear_known args named)
    · exact executes_withArguments rfl serves owner one (runReadCountersClear_unknown args none)
  case count =>
    have bound := c.isLt
    rw [← BitVec.toNat_inj, Count.up_toNat]
    omega

/-! ### Sessions -/

/-- The four bytes of a lease length. -/
theorem fieldAt_four {value : List Byte} (h : value.length = 4) : fieldAt value 0 4 = numberOf value := by
  rw [fieldAt, List.drop_zero, List.take_of_length_le h.le]

theorem leaseLegal_iff (ms : Nat) : leaseLegal ms = true ↔ ms = 0 ∨ 1000 ≤ ms ∧ ms ≤ 300000 := by
  simp [leaseLegal]

theorem not_leaseLegal_iff (ms : Nat) : (!leaseLegal ms) = true ↔ ¬(ms = 0 ∨ 1000 ≤ ms ∧ ms ≤ 300000) := by
  rw [Bool.not_eq_true', ← Bool.not_eq_true, leaseLegal_iff]

theorem not_individualAddress_iff (m : Mac) : (!individualAddress m) = true ↔ m.getLsbD 40 = true := by
  rw [individualAddress, Bool.not_not]

section
variable {r : Request} {s : State} {ms : Nat} (lease : fieldAt r.args 0 4 = ms)
include lease

theorem runOpenSession_refused (h : r.source.getLsbD 40 = true ∨ ¬(ms = 0 ∨ 1000 ≤ ms ∧ ms ≤ 300000)) :
    runOpenSession r s = badValue s := by
  unfold runOpenSession
  rw [lease]
  by_cases group : r.source.getLsbD 40 = true
  · exact if_pos ((not_individualAddress_iff _).mpr group)
  · exact (if_neg fun k => group ((not_individualAddress_iff _).mp k)).trans
      (if_pos ((not_leaseLegal_iff ms).mpr (h.resolve_left group)))

theorem runOpenSession_judged (individual : r.source.getLsbD 40 = false) (legal : ms = 0 ∨ 1000 ≤ ms ∧ ms ≤ 300000) :
    runOpenSession r s = if s.agent.session.isOpen then .answer s ⟨.sessionHeld, 0, heldResult s⟩
      else .answer (openedSession r ms s) (Answer.okay (bigEndian 2 (s.agent.session.number + 1).toNat
        ++ bigEndian 4 (if ms = 0 then 30000 else ms))) := by
  unfold runOpenSession
  rw [lease]
  refine (if_neg fun k => ?_).trans ((if_neg fun k => (not_leaseLegal_iff ms).mp k legal).trans ?_)
  · rw [not_individualAddress_iff, individual] at k
    cases k
  · rfl

end

/-- Settles O47: the judgement of the source and the lease, and then of the session. -/
theorem sessionOpened : Obligations.SessionOpened := by
  rintro s slot rest r ms value u serves rfl args four lease rfl
  have length : (requestOf slot).args.length = 4 := by rw [args, four]
  have field : fieldAt (requestOf slot).args 0 4 = ms := by rw [args, fieldAt_four four, lease]
  refine ⟨fun refused => answers_open rfl serves length (runOpenSession_refused field refused), fun individual legal => ?_⟩
  have judged (t : State) := runOpenSession_judged (s := t) field individual legal
  refine ⟨fun held => ?_, ?_⟩
  · exact answers_open rfl serves length ((judged _).trans (if_pos held))
  · rintro none _ _ rfl rfl
    exact answers_open rfl serves length ((judged _).trans (if_neg (by simp [none])))

theorem offerAllNotices_agent (s : State) : (offerAllNotices s).agent = s.agent := by
  obtain ⟨-, -, -, -, -, -, -, -, agent, -⟩ := offerAllNotices_fields s
  exact agent

section
variable {r : Request} {s : State} {ms : Nat} (lease : fieldAt r.args 0 4 = ms)
include lease

theorem runRenew_refused (h : ¬(ms = 0 ∨ 1000 ≤ ms ∧ ms ≤ 300000)) : runRenew r s = badValue s := by
  unfold runRenew
  rw [lease]
  exact if_pos ((not_leaseLegal_iff ms).mpr h)

/-- An accepted RENEW answers with the length and the expiry that it set (R154). -/
theorem runRenew_accepted (legal : ms = 0 ∨ 1000 ≤ ms ∧ ms ≤ 300000) :
    runRenew r s = .answer (renewedSession r ms s) (Answer.okay (bigEndian 4 (if ms = 0 then s.agent.session.leaseMs else ms)
      ++ bigEndian 6 (leaseDue (if ms = 0 then s.agent.session.leaseMs else ms) s).toNat)) := by
  have agent : (renewedSession r ms s).agent = _ := offerAllNotices_agent _
  unfold runRenew
  rw [lease]
  refine (if_neg fun k => (not_leaseLegal_iff ms).mp k legal).trans ?_
  simp only [agent]
  rfl

end

/-- Settles O48: RENEW by its lease length, and CLOSE_SESSION. -/
theorem sessionRenewedOrClosed : Obligations.SessionRenewedOrClosed := by
  rintro s slot rest r rfl owner
  refine ⟨fun ms value serves args four lease => ⟨fun illegal => ?refused, fun legal => ?renewed⟩, fun serves empty => ?closed⟩
  case refused =>
    exact executes_withArguments rfl serves owner (by rw [args, four])
      (runRenew_refused (by rw [args, fieldAt_four four, lease]) illegal)
  case renewed =>
    rintro _ _ rfl rfl
    exact executes_withArguments rfl serves owner (by rw [args, four])
      (runRenew_accepted (by rw [args, fieldAt_four four, lease]) legal)
  case closed =>
    have runs : withoutArguments runCloseSession (requestOf slot) (s.owned rest) = .closing (s.owned rest) (Answer.okay []) :=
      if_pos (List.isEmpty_iff.mpr empty)
    refine (takeOwned_closing (row := .closeSession) serves owner runs).trans
      (congrArg (fun u => Host.Outcome.next (respond (requestOf slot) (Answer.okay []) u)) ?_)
    rfl

/-- Settles O49: the wait of the lease is due or it is not. -/
theorem leaseExpires : Obligations.LeaseExpires := by
  intro s released
  have means : exec .leaseExpiry s
      = .next (if s.agent.session.isOpen ∧ waitDue s.agent.session.leaseWait s then endSession s else s) :=
    congrArg Host.Outcome.next (outsideReset_released released _)
  refine ⟨fun held due => ?_, fun early => ?_⟩
  · rw [means, if_pos ⟨held, by simp [waitDue, due]⟩]
    rfl
  · rw [means, if_neg fun h => early (by simpa [waitDue] using h.2)]

/-! ### Notices -/

/-- The body of a notice: the header of section 12.1 and the 20 bytes of section 12.2 (R179). -/
def noticeBody (s : State) (n : Notice) : List Byte :=
  [1, 0x80, 0, 30] ++ bigEndian 2 s.notices.sequence.toNat ++ bigEndian 2 s.agent.session.number.toNat
    ++ [0, if s.notices.loss then 0x10 else 0] ++ [BitVec.ofNat 8 n.detail.kind, 0]
    ++ bigEndian 6 n.time.toNat ++ bigEndian 4 n.cycle.toNat ++ noticeDetailBytes n.detail

theorem noticeDetailBytes_length (d : NoticeDetail) : (noticeDetailBytes d).length = 8 := by
  cases d <;> simp [noticeDetailBytes]

theorem noticeBody_length (s : State) (n : Notice) : (noticeBody s n).length = 30 := by
  simp [noticeBody, noticeDetailBytes_length]

theorem noticeFrame_eq (s : State) (n : Notice) : noticeFrame s n
    = builtFrame s.agent.session.ownerAddress s.config.stationAddress s.config.managementType (noticeBody s n) := by
  have size : bigEndian 2 30 = [0, 30] := rfl
  have flag : bigEndian 2 (if s.notices.loss then flagLossBefore else 0).toNat = [0, if s.notices.loss then 0x10 else 0] := by
    cases s.notices.loss <;> rfl
  simp only [noticeFrame, builtFrame, noticeBody, size, flag, List.append_assoc]
  rfl

theorem noticeFrame_length (s : State) (n : Notice) : (noticeFrame s n).length = 64 := by
  rw [noticeFrame_eq, builtFrame_length, noticeBody_length]
  rfl

/-- An accepted head leaves the queue, and the next one is offered (R179). -/
theorem offerAllNotices_accepted {s : State} {n : Notice} {rest : List Notice} (waiting : s.notices.records = n :: rest)
    (v : admissionVerdict s.agent.session.ownerPort queueM (noticeFrame s n).length s = none) :
    offerAllNotices s = offerAllNotices { acceptFrame s.agent.session.ownerPort queueM (noticeFrame s n) s with
      notices := ⟨rest, s.notices.sequence + 1, false⟩ } := by
  obtain ⟨-, -, -, -, -, -, -, -, -, -, notices, -⟩ :=
    (acceptFrame_same s.agent.session.ownerPort queueM (noticeFrame s n) s).fields
  simp only [offerAllNotices, waiting, List.length_cons, offerNotices, v, notices]

theorem raiseNotice_discarded {d : NoticeDetail} {cycle : Count} {s : State}
    (h : s.agent.session.isOpen = false ∨ s.config.noticeEnable.getLsbD (d.kind - 1) = false) : raiseNotice d cycle s = s := by
  rcases h with shut | off
  · exact raiseNotice_closed d cycle s shut
  · exact raiseNotice_disabled d cycle s off

section
variable {d : NoticeDetail} {s : State} (cycle : Count) (opened : s.agent.session.isOpen = true)
  (enabled : s.config.noticeEnable.getLsbD (d.kind - 1) = true)
include opened enabled

theorem raiseNotice_lost (full : 8 ≤ s.notices.records.length) :
    raiseNotice d cycle s = ({ s with notices := { s.notices with loss := true } }).countAgent
      (fun c => { c with noticesLost := Count.up c.noticesLost }) := by
  unfold raiseNotice
  rw [if_neg (by simp [opened]), if_neg (by simp [noticeEnabled, enabled]), if_pos full]

theorem raiseNotice_queued (room : s.notices.records.length < 8) :
    raiseNotice d cycle s = offerAllNotices
      { s with notices := { s.notices with records := s.notices.records ++ [⟨d, s.time, cycle⟩] } } := by
  unfold raiseNotice
  rw [if_neg (by simp [opened]), if_neg (by simp [noticeEnabled, enabled]), if_neg (not_le.mpr room)]

end

/-- Settles O50: the judgements of a raised notice, the frame and the offer of the head, and the encodings. -/
theorem noticesRaisedAndOffered : Obligations.NoticesRaisedAndOffered := by
  refine ⟨fun d cycle s => ⟨raiseNotice_discarded, fun opened enabled => ⟨raiseNotice_lost cycle opened enabled,
    raiseNotice_queued cycle opened enabled⟩⟩, fun s n rest waiting => ?frame, fun ref b cause bank o p l =>
      ⟨rfl, rfl, rfl, rfl, rfl, rfl, rfl, rfl⟩, rfl, rfl, rfl, rfl, rfl⟩
  have length := noticeFrame_length s n
  have body := builtFrame_body s.agent.session.ownerAddress s.config.stationAddress s.config.managementType (noticeBody s n)
  obtain ⟨destination, source⟩ := builtFrame_addresses s.agent.session.ownerAddress s.config.stationAddress
    s.config.managementType (noticeBody s n)
  rw [noticeBody_length] at body
  refine ⟨length, closeFrame_passes _, ?_, ?_, ?_, ?_, fun accepted => offerAllNotices_accepted waiting (by rwa [length]),
    fun refused => ?_⟩
  · rw [noticeFrame_eq]
    exact builtFrame_type _ _ _ _
  · rw [noticeFrame_eq]
    exact body
  · rw [noticeFrame_eq, destination]
  · rw [noticeFrame_eq, source]
  · obtain ⟨reason, judged⟩ := Option.ne_none_iff_exists'.mp refused
    exact offerAllNotices_refused waiting (length.symm ▸ judged)

end Sys2Proof.Machine
end

section
/-! PROOF. The rows of WRITE_CONFIG (R142, R183, R18, R60, R104, R120, R143, R178): the judgements before an item's own, and the items whose write
only stores. -/

namespace Sys2Proof.Machine

/-! ### The judgements before an item's own (R142, R183) -/

/-- The rows of WRITE_CONFIG (section 12.4). -/
def configRows : List Instr := ownerOnlyRows.take 13

/-- The meaning of a row of WRITE_CONFIG is its own judgement after the common ones. -/
theorem exec_configRow : ∀ row ∈ configRows, ∀ s, ∃ write, exec row s = takeOwned row (writeConfigWith write) s := by
  intro row mem s
  simp only [configRows, ownerOnlyRows, List.take, List.cons_append, List.nil_append, List.mem_cons, List.not_mem_nil, or_false] at mem
  rcases mem with h | h | h | h | h | h | h | h | h | h | h | h | h <;> subst h <;> exact ⟨_, rfl⟩

theorem writeConfigRow_mem_configRows (args : List Byte) : writeConfigRow args ∈ configRows := by
  unfold writeConfigRow
  split
  · decide
  · split <;> (try split) <;> (try split) <;> decide

/-- An owner-only request with the code of WRITE_CONFIG is of the row that its arguments name. -/
theorem slotRow_writeConfig {slot : Slot} (owned : slotRow slot ∈ ownerOnlyRows) (code : (requestOf slot).code = 0x03) :
    slotRow slot = writeConfigRow (requestOf slot).args := by
  unfold slotRow at owned ⊢
  split at owned
  · exact absurd owned (by decide)
  · rename_i long
    rw [if_neg long]
    simp only [requestRow, code]
    rfl

section
variable {row : Instr} {write : ConfigId → List Byte → State → Verdict} {s u : State} {slot : Slot} {rest : List Slot} {a : Answer}
  {id : Byte} {value : List Byte} {item : ConfigId} (means : exec row s = takeOwned row (writeConfigWith write) s)
  (serves : s.serves row slot rest) (owner : s.ownersNext (requestOf slot))
include means serves owner

/-- An owner's write in sequence that its identifier and its length let through is answered as the item judges it. -/
theorem executes_write (args : (requestOf slot).args = id :: value) (known : configIdOf id.toNat = some item)
    (size : value.length = item.size) (answer : write item value (s.owned rest) = .answer u a) :
    executes row s (requestOf slot) a u := by
  refine means.trans (takeOwned_answer serves owner ?_)
  simp only [writeConfigWith, args, known, if_pos size, answer]

theorem executes_write_size (args : (requestOf slot).args = id :: value) (known : configIdOf id.toNat = some item)
    (size : value.length ≠ item.size) : executes row s (requestOf slot) (Answer.badArgument .badLength) (s.owned rest) := by
  refine means.trans (takeOwned_answer serves owner ?_)
  simp only [writeConfigWith, args, known, if_neg size]

theorem executes_write_empty (args : (requestOf slot).args = []) :
    executes row s (requestOf slot) (Answer.badArgument .badLength) (s.owned rest) := by
  refine means.trans (takeOwned_answer serves owner ?_)
  simp only [writeConfigWith, args]

theorem executes_write_unknown (args : (requestOf slot).args = id :: value) (unknown : configIdOf id.toNat = none) :
    executes row s (requestOf slot) (Answer.badArgument .badValue) (s.owned rest) := by
  refine means.trans (takeOwned_answer serves owner ?_)
  simp only [writeConfigWith, args, unknown]

end

/-- An enable written with one byte that is neither off nor on has the row of the refused writes (log entry 8). -/
theorem writeConfigRow_enable {id value : Byte} (enable : id = 0x10 ∨ id = 0x20) (neither : 1 < value.toNat) :
    writeConfigRow [id, value] = .writeConfig := by
  have on : [value] ≠ [1] := by
    rintro ⟨⟩
    exact absurd neither (by decide)
  have off : [value] ≠ [0] := by
    rintro ⟨⟩
    exact absurd neither (by decide)
  rcases enable with rfl | rfl
  · exact (if_neg on).trans (if_neg off)
  · exact (if_neg on).trans (if_neg off)

/-! ### The values of the items -/

theorem flagOf_toNat (b : Bool) : flagOf b.toNat = some b := by cases b <;> rfl

theorem flagOf_eq_none {n : Nat} (h : 1 < n) : flagOf n = none := by
  rw [flagOf, if_neg (by omega), if_neg (by omega)]

theorem portOf_portByte (p : Port) : portOf (portByte p).toNat = some p := by cases p <;> rfl

theorem portOf_eq_none {n : Nat} (h : 1 < n) : portOf n = none := by
  rw [portOf, if_neg (by omega), if_neg (by omega)]

theorem byte_of_toNat {b : Byte} {n : Nat} (h : b.toNat = n) : b = BitVec.ofNat 8 n := by
  rw [← h, BitVec.ofNat_toNat, BitVec.setWidth_eq]

theorem disposition_byte {b : Byte} {d : Disposition} : dispositionOf b.toNat = some d →
    b = match d with
      | .forward => 0
      | .discard => 1 := by
  intro h
  unfold dispositionOf at h
  split_ifs at h with forward discard <;> cases h
  · exact byte_of_toNat forward
  · exact byte_of_toNat discard

theorem classChoice_byte {b : Byte} {c : ClassChoice} : classChoiceOf b.toNat = some c →
    b = match c with
      | .fixed k => BitVec.ofNat 8 k.val
      | .fromPriority => 8 := by
  intro h
  unfold classChoiceOf at h
  split_ifs at h with fixed priority <;> cases h
  · exact byte_of_toNat (Nat.mod_eq_of_lt fixed).symm
  · exact byte_of_toNat priority

theorem markKind_byte {b : Byte} {m : MarkKind} : markKindOf b.toNat = some m →
    b = match m with
      | .noMark => 0
      | .cycle => 1
      | .step => 2 := by
  intro h
  unfold markKindOf at h
  split_ifs at h with none cycle step <;> cases h
  · exact byte_of_toNat none
  · exact byte_of_toNat cycle
  · exact byte_of_toNat step

/-- Only the three bytes of an action are read as it (R104). -/
theorem actionBytes_of_actionOf {value : List Byte} {a : Action} (length : value.length = 3) (read : actionOf value = some a) :
    value = actionBytes a := by
  obtain ⟨x, y, z, rfl⟩ := List.length_eq_three.mp length
  simp only [actionOf, fieldAt_first, fieldAt_second, fieldAt_third] at read
  split at read
  · rename_i d c m first second third
    cases read
    rw [disposition_byte first, classChoice_byte second, markKind_byte third]
    rfl
  · cases read

/-! ### The items -/

/-- Settles O38: the judgements before an item's own, and the range of each item. -/
theorem plainItemsStored : Obligations.PlainItemsStored := by
  refine ⟨?common, fun s slot rest id value serves owner => executes_write_unknown rfl serves owner, ?items⟩
  case common =>
    rintro row mem s slot rest r serves rfl code owner
    have ⟨_, _, slotIs, _⟩ := serves
    have named : row = writeConfigRow (requestOf slot).args := slotIs ▸ slotRow_writeConfig (slotIs.symm ▸ mem) code
    obtain ⟨write, means⟩ := exec_configRow row (named ▸ writeConfigRow_mem_configRows _) s
    refine ⟨fun id value item => executes_write_size means serves owner, executes_write_empty means serves owner,
      fun id value args enable neither => ?_⟩
    obtain rfl : row = .writeConfig := by rw [named, args, writeConfigRow_enable enable neither]
    rcases enable with rfl | rfl
    · exact executes_write rfl serves owner args (item := .trackerEnable) rfl rfl rfl
    · exact executes_write rfl serves owner args (item := .sequencerEnable) rfl rfl rfl
  case items =>
    rintro s slot rest r value n rfl owner rfl
    refine ⟨?sync, ?station, ?type, ?action, ?quota, ?notices⟩
    case sync =>
      intro serves args size
      have done {u : State} {a : Answer} (h : runWriteSyncOutEnable value (s.owned rest) = .answer u a) :=
        executes_write (write := fun _ value s => runWriteSyncOutEnable value s) (item := .syncOutEnable) rfl serves owner args rfl size h
      refine ⟨fun b n => done ?_, fun high => done ?_⟩
      · simp only [runWriteSyncOutEnable, n, flagOf_toNat]
        rfl
      · simp only [runWriteSyncOutEnable, flagOf_eq_none high]
        rfl
    case station =>
      intro serves args size
      have done {u : State} {a : Answer} (h : runWriteStationAddress value (s.owned rest) = .answer u a) :=
        executes_write (write := fun _ value s => runWriteStationAddress value s) (item := .stationAddress) rfl serves owner args rfl size h
      obtain ⟨b, tail, rfl⟩ := List.exists_cons_of_length_eq_add_one size
      have first : fieldAt (b :: tail) 0 1 = b.toNat := fieldAt_first b tail
      refine ⟨fun individual => done (if_neg ?_), fun group => done (if_pos (first.symm ▸ group))⟩
      rw [first]
      exact fun odd => absurd (individual.symm.trans odd) (by decide)
    case type =>
      intro serves args size
      have done {u : State} {a : Answer} (h : runWriteManagementType value (s.owned rest) = .answer u a) :=
        executes_write (write := fun _ value s => runWriteManagementType value s) (item := .managementType) rfl serves owner args rfl size h
      exact ⟨fun low tag => done (if_neg (by omega)), fun refused => done (if_pos refused)⟩
    case action =>
      intro serves args size
      have done {u : State} {a : Answer} (h : runWriteDefaultAction value (s.owned rest) = .answer u a) :=
        executes_write (write := fun _ value s => runWriteDefaultAction value s) (item := .defaultAction) rfl serves owner args rfl size h
      refine ⟨fun a bytes => done ?_, fun none => done ?_⟩
      · simp only [runWriteDefaultAction, bytes, actionOf_actionBytes]
        rfl
      · have unread : actionOf value = Option.none :=
          Option.eq_none_iff_forall_ne_some.mpr fun a read => none a (actionBytes_of_actionOf size read)
        simp only [runWriteDefaultAction, unread]
        rfl
    case quota =>
      intro p q id serves args named size
      have known : configIdOf id.toNat = some (.quota p q) := by
        rw [named]
        cases p
        · exact (configIdOf_quota q).1
        · exact (configIdOf_quota q).2
      have done {u : State} {a : Answer} (h : runWriteQuota (.quota p q) value (s.owned rest) = .answer u a) :=
        executes_write (write := runWriteQuota) rfl serves owner args known size h
      exact ⟨fun legal => done (if_pos legal), fun high => done (if_neg (by omega))⟩
    case notices =>
      intro serves args size
      have done {u : State} {a : Answer} (h : runWriteNoticeEnableSet value (s.owned rest) = .answer u a) :=
        executes_write (write := fun _ value s => runWriteNoticeEnableSet value s) (item := .noticeEnable) rfl serves owner args rfl size h
      exact ⟨fun legal => done (if_pos legal), fun high => done (if_neg (by omega))⟩

/-- Settles O39: the state of the tracker, then the range of each item. -/
theorem trackerItemsStoredInOff : Obligations.TrackerItemsStoredInOff := by
  rintro s slot rest r id value item n serves rfl owner args known size rfl
  have done {u : State} {a : Answer} (h : runWriteTrackerItem item value (s.owned rest) = .answer u a) :=
    executes_write (write := runWriteTrackerItem) rfl serves owner args known size h
  refine ⟨fun busy => done (if_pos busy), fun off => ?_⟩
  have judged : runWriteTrackerItem item value (s.owned rest) = match trackerItemWritten s.config item value with
      | some c => written ((s.owned rest).setConfig c)
      | none => badValue (s.owned rest) := if_neg (not_not.mpr off)
  have stored {c : ConfigItems} (h : trackerItemWritten s.config item value = some c) :
      executes .writeTrackerItem s (requestOf slot) (Answer.okay []) { s.owned rest with config := c } :=
    done (by rw [judged, h]; rfl)
  refine ⟨?port, ?depth, ?window, ?holdover, ?spanMin, ?spanMax, fun refused => done ?_⟩
  case port =>
    rintro p rfl n
    exact stored (by simp only [trackerItemWritten, n, portOf_portByte, Option.map_some])
  case depth => exact fun isDepth legal => stored (by subst isDepth; exact if_pos legal)
  case window => exact fun isWindow low high => stored (by subst isWindow; exact if_pos ⟨low, high⟩)
  case holdover => exact fun isHoldover legal => stored (by subst isHoldover; exact if_pos legal)
  case spanMin => exact fun isMin low high => stored (by subst isMin; exact if_pos ⟨low, high⟩)
  case spanMax => exact fun isMax low high => stored (by subst isMax; exact if_pos ⟨low, high⟩)
  have unread : trackerItemWritten s.config item value = none := by
    rcases refused with ⟨rfl, n⟩ | ⟨rfl, n⟩ | ⟨rfl, n⟩ | ⟨rfl, n⟩ | ⟨rfl, n⟩ | ⟨rfl, n⟩
    · simp only [trackerItemWritten, portOf_eq_none n, Option.map_none]
    · exact if_neg n
    · exact if_neg n
    · exact if_neg (not_le.mpr n)
    · exact if_neg n
    · exact if_neg n
  rw [judged, unread]
  rfl

end Sys2Proof.Machine
end

section
/-! PROOF. The sequencer enable and the free gate sets (R42, R43). -/

namespace Sys2Proof.Machine

/-- The rows of the sequencer enable are writes of its item with one byte (log entry 8). -/
theorem sequencerEnable_args {slot : Slot} (h : slotRow slot = .sequencerEnableOn ∨ slotRow slot = .sequencerEnableOff) :
    ∃ id value, (requestOf slot).args = id :: value ∧ configIdOf id.toNat = some .sequencerEnable
      ∧ value.length = ConfigId.sequencerEnable.size := by
  obtain ⟨id, value, item, args, known, mem⟩ := item_of_slotRow rfl (by rcases h with h | h <;> rw [h] <;> decide)
  have named : writeConfigRow (id :: value) = slotRow slot := by
    rw [← args]
    exact writeConfigRow_of_slotRow (by rcases h with h | h <;> rw [h] <;> decide)
  obtain rfl : item = .sequencerEnable := by
    rcases h with h | h <;> rw [h] at mem <;> cases item <;> simp [ConfigId.rows] at mem ⊢
  refine ⟨id, value, args, known, ?_⟩
  by_contra length
  have on : value ≠ [1] := fun e => length (e ▸ rfl)
  have off : value ≠ [0] := fun e => length (e ▸ rfl)
  rw [← named] at h
  simp only [writeConfigRow, known, if_neg on, if_neg off] at h
  rcases h with h | h <;> cases h

/-- The sequencer enable written on (R42). -/
theorem sequencerEnable_eq (s : State) : sequencerEnable s = { s with
    sequencer := if s.sequencer.state = .stopped then { s.sequencer with state := .free } else s.sequencer } := by
  unfold sequencerEnable
  cases st : s.sequencer.state <;> rfl

/-- The sequencer enable written off where no program is followed (R42). -/
theorem sequencerDisable_idle {s : State} (idle : s.sequencer.state.follows = false) :
    sequencerDisable s = { s with sequencer := { s.sequencer with state := .stopped } } := by
  unfold sequencerDisable
  cases st : s.sequencer.state with
  | stopped =>
    show s = { s with sequencer := { s.sequencer with state := .stopped } }
    rw [← st]
  | free => rfl
  | running | halted | rejoining =>
    rw [st] at idle
    cases idle

/-- What the sequencer enable written off leaves of the pins, what it counts, and what it raises (R42, R52, R167, R171). -/
theorem sequencerDisable_raises {s : State} (follows : s.sequencer.state.follows = true) :
    (sequencerDisable s).pins = s.pins
      ∧ s.raises s.sequencer.cycle
        (if s.programs.commitPending then [.commitDone s.programs.staged .stoppedEntry] else []) (sequencerDisable s)
      ∧ (sequencerDisable s).counters.sequencer = { s.counters.sequencer with
          settleCancels := if s.sequencer.pending = none then s.counters.sequencer.settleCancels
            else Count.up s.counters.sequencer.settleCancels } := by
  rw [sequencerDisable_following follows]
  let v : State := { leaveEntry s with sequencer := { (leaveEntry s).sequencer with state := .stopped } }
  have left : s.sameButWalk (presentBoth (freePresentation s) v) :=
    (leaveEntry_walk s).trans (State.sameButWalk.trans (t := v) rfl (presentBoth_walk _ _))
  have raised := applyPendingCommit_raises .stoppedEntry s.sequencer.cycle (presentBoth (freePresentation s) v)
  have programs : (presentBoth (freePresentation s) v).programs = s.programs := by simp [v]
  rw [programs] at raised
  exact ⟨by simp, raised.before left.toCadence (by simp [v]), by simp⟩

theorem gateSetOf_legal {n : Nat} (h : n < 512) : gateSetOf n = some (BitVec.ofNat 9 n) := if_pos h

theorem gateSetOf_illegal {n : Nat} (h : 512 ≤ n) : gateSetOf n = none := if_neg (by omega)

/-- Settles O41: the enable on, the enable off by whether a program is followed, and the free gate sets. -/
theorem sequencerItemsWritten : Obligations.SequencerItemsWritten := by
  rintro s slot rest r rfl owner
  refine ⟨fun serves => ?on, fun serves => ?off, fun p value n serves args size number => ?gates⟩
  case on =>
    have ⟨_, _, row, _⟩ := serves
    obtain ⟨id, value, args, known, size⟩ := sequencerEnable_args (.inl row)
    exact executes_write (write := fun _ _ s => runSequencerEnableOn s) rfl serves owner args known size
      (by rw [runSequencerEnableOn, sequencerEnable_eq]; rfl)
  case off =>
    have ⟨_, _, row, _⟩ := serves
    obtain ⟨id, value, args, known, size⟩ := sequencerEnable_args (.inr row)
    let v : State := { s.owned rest with config := { s.config with sequencerEnable := false } }
    refine ⟨sequencerDisable v, executes_write (write := fun _ _ s => runSequencerEnableOff s) rfl serves owner args known size rfl,
      sequencerDisable_walk v, ?pins, sequencerDisable_idle (s := v), fun follows => ?follows⟩
    case pins =>
      by_cases follows : s.sequencer.state.follows = true
      · obtain ⟨pins, -⟩ := sequencerDisable_raises (s := v) follows
        exact pins
      · rw [sequencerDisable_idle (s := v) (Bool.eq_false_iff.mpr follows)]
        rfl
    obtain ⟨sequencer, programs⟩ := sequencerDisable_fields (s := v) follows
    obtain ⟨-, raised, counted⟩ := sequencerDisable_raises (s := v) follows
    exact ⟨⟨_, _, rfl, rfl, sequencerDisable_following (s := v) follows⟩, sequencer, programs, raised, counted⟩
  case gates =>
    have known : ∃ id, (requestOf slot).args = id :: value ∧ configIdOf id.toNat = some (.freeGates p) := by
      cases p
      · exact ⟨_, args, rfl⟩
      · exact ⟨_, args, rfl⟩
    obtain ⟨id, args, known⟩ := known
    have done {u : State} {a : Answer} (h : runWriteFreeGateSet (.freeGates p) value (s.owned rest) = .answer u a) :=
      executes_write (write := runWriteFreeGateSet) rfl serves owner args known size h
    rw [number]
    refine ⟨fun high => done ?_, ?_⟩
    · simp only [runWriteFreeGateSet, gateSetOf_illegal high]
      rfl
    intro legal w is
    have stored : runWriteFreeGateSet (.freeGates p) value (s.owned rest) = written (freeGatesWritten w) := by
      simp only [runWriteFreeGateSet, gateSetOf_legal legal, is]
      rfl
    have moved : w.sequencer = s.sequencer ∧ w.programs = s.programs ∧ w.pins = s.pins ∧ w.notices = s.notices
        ∧ w.egress = s.egress := by
      rw [is]
      exact ⟨rfl, rfl, rfl, rfl, rfl⟩
    obtain ⟨sameSequencer, samePrograms, samePins, sameNotices, sameEgress⟩ := moved
    refine ⟨fun follows => done ?_, fun idle => ⟨_, done stored, ?_⟩⟩
    · rw [stored, freeGatesWritten_following (sameSequencer.symm ▸ follows)]
      rfl
    have presented := freeGatesWritten_idle (s := w) (sameSequencer.symm ▸ idle)
    have walk := freeGatesWritten_walk w
    rw [presented] at walk ⊢
    obtain ⟨-, pins, -, -, -, -, sequencer, programs, -, config, notices, -⟩ := presentBoth_fields (freePresentation w) w
    rw [sameSequencer] at sequencer
    refine ⟨rfl, sequencer, config, walk, programs.trans samePrograms, pins.trans samePins, notices.trans sameNotices,
      fun agree q => presentBoth_presentation q _ _ fun q => ?_⟩
    unfold State.sched
    rw [sameSequencer, sameEgress]
    exact agree q

end Sys2Proof.Machine
end

section
/-! PROOF. Records as bytes (section 12.3, R110, R32, R184): a record that is written out is read back, and the first field that fails is the one
that is named. -/

namespace Sys2Proof.Machine

/-! ### The enumerations in their order -/

theorem flagOf_legal {n : Nat} (h : ¬ 1 < n) : flagOf n = some (decide (n = 1)) := by
  obtain rfl | rfl : n = 0 ∨ n = 1 := by omega
  · rfl
  · rfl

theorem ingressOf_eq (n : Nat) : ingressOf n = [Ingress.portA, .portB, .either][n]? := by
  match n with
  | 0 | 1 | 2 => rfl
  | n + 3 => rfl

theorem dispositionOf_eq (n : Nat) : dispositionOf n = [Disposition.forward, .discard][n]? := by
  match n with
  | 0 | 1 => rfl
  | n + 2 => rfl

theorem classChoiceOf_eq (n : Nat) : classChoiceOf n
    = [ClassChoice.fixed 0, .fixed 1, .fixed 2, .fixed 3, .fixed 4, .fixed 5, .fixed 6, .fixed 7, .fromPriority][n]? := by
  match n with
  | 0 | 1 | 2 | 3 | 4 | 5 | 6 | 7 | 8 => rfl
  | n + 9 => exact (if_neg (by omega)).trans (if_neg (by omega))

theorem markKindOf_eq (n : Nat) : markKindOf n = [MarkKind.noMark, .cycle, .step][n]? := by
  match n with
  | 0 | 1 | 2 => rfl
  | n + 3 => rfl

theorem listed_eq_none {α : Type} {o : Option α} {l : List α} {n : Nat} (eq : o = l[n]?) (h : l.length ≤ n) : o = none :=
  eq.trans (List.getElem?_eq_none h)

theorem listed_eq_some {α : Type} {o : Option α} {l : List α} {n : Nat} (eq : o = l[n]?) (h : ¬ l.length ≤ n) :
    ∃ a, o = some a :=
  ⟨_, eq.trans (List.getElem?_eq_getElem (not_le.mp h))⟩

theorem prioritySetOf_toNat (x : PrioritySet) : prioritySetOf x.toNat = some x := by
  rw [prioritySetOf, if_pos x.isLt, BitVec.ofNat_toNat, BitVec.setWidth_eq]

theorem gateSetOf_toNat (x : GateSet) : gateSetOf x.toNat = some x := by
  rw [gateSetOf, if_pos x.isLt, BitVec.ofNat_toNat, BitVec.setWidth_eq]

/-! ### Records written out -/

theorem flagOf_flagByte (b : Bool) : flagOf (numberOf (flagByte b)) = some b := by cases b <;> rfl

theorem ingressOf_ingressByte (i : Ingress) : ingressOf (numberOf [ingressByte i]) = some i := by cases i <;> rfl

/-- The three bytes of an action are read back one by one (R184). -/
theorem action_fields (a : Action) : dispositionOf (fieldAt (actionBytes a) 0 1) = some a.disposition
    ∧ classChoiceOf (fieldAt (actionBytes a) 1 1) = some a.classChoice
    ∧ markKindOf (fieldAt (actionBytes a) 2 1) = some a.mark := by
  obtain ⟨d, c, m⟩ := a
  refine ⟨by cases d <;> rfl, ?_, by cases m <;> rfl⟩
  cases c with
  | fixed k => fin_cases k <;> rfl
  | fromPriority => rfl

/-- An optional field is its presence byte and its value, an absent one 0 (R184). -/
theorem optionalField_eq (n : Nat) (v : Option Nat) : optionalField n v = flagByte v.isSome ++ bigEndian n (v.getD 0) := by
  cases v with
  | some x => rfl
  | none =>
    have zeros : bigEndian n 0 = List.replicate n 0 := by
      induction n with
      | zero => rfl
      | succ n ih =>
        rw [bigEndian, ih, Nat.zero_div]
        rfl
    exact congrArg (0 :: ·) zeros.symm

/-- The 25 bytes, part by part (section 12.3). -/
theorem matchRecordBytes_eq (e : MatchEntry) : matchRecordBytes e
    = flagByte e.valid ++ [ingressByte e.ingress] ++ bigEndian 6 e.value.toNat ++ bigEndian 6 e.mask.toNat
      ++ (flagByte (e.etherType.map BitVec.toNat).isSome ++ bigEndian 2 ((e.etherType.map BitVec.toNat).getD 0))
      ++ bigEndian 2 e.priorities.toNat
      ++ (flagByte (e.vlan.map BitVec.toNat).isSome ++ bigEndian 2 ((e.vlan.map BitVec.toNat).getD 0)) ++ actionBytes e.action := by
  rw [matchRecordBytes, optionalField_eq, optionalField_eq]

/-- An optional value of so many bits is read back from its presence and its number. -/
theorem optional_readBack {w : Nat} (x : Option (BitVec w)) :
    (if (x.map BitVec.toNat).isSome then some (BitVec.ofNat w ((x.map BitVec.toNat).getD 0)) else none) = x := by
  cases x <;> simp

theorem readMatchRecord_bytes (e : MatchEntry) : readMatchRecord (matchRecordBytes e) = .ok e := by
  have typeBound : (e.etherType.map BitVec.toNat).getD 0 < 65536 := by
    cases e.etherType with
    | none => decide
    | some x => exact x.isLt
  have vlanBound : (e.vlan.map BitVec.toNat).getD 0 < 4096 := by
    cases e.vlan with
    | none => decide
    | some x => exact x.isLt
  have inRange : ¬((e.vlan.map BitVec.toNat).isSome = true ∧ 4095 < (e.vlan.map BitVec.toNat).getD 0) := by omega
  have valid : flagOf (fieldAt (matchRecordBytes e) 0 1) = some e.valid := flagOf_flagByte e.valid
  have ingress : ingressOf (fieldAt (matchRecordBytes e) 1 1) = some e.ingress := ingressOf_ingressByte e.ingress
  have value : fieldAt (matchRecordBytes e) 2 6 = e.value.toNat := numberOf_bigEndian_toNat (n := 6) e.value rfl
  have mask : fieldAt (matchRecordBytes e) 8 6 = e.mask.toNat := numberOf_bigEndian_toNat (n := 6) e.mask rfl
  have optional : flagOf (fieldAt (matchRecordBytes e) 14 1) = some (e.etherType.map BitVec.toNat).isSome
      ∧ fieldAt (matchRecordBytes e) 15 2 = (e.etherType.map BitVec.toNat).getD 0
      ∧ flagOf (fieldAt (matchRecordBytes e) 19 1) = some (e.vlan.map BitVec.toNat).isSome
      ∧ fieldAt (matchRecordBytes e) 20 2 = (e.vlan.map BitVec.toNat).getD 0 := by
    rw [matchRecordBytes_eq]
    exact ⟨flagOf_flagByte _, numberOf_bigEndian 2 _ typeBound, flagOf_flagByte _,
      numberOf_bigEndian 2 _ (vlanBound.trans (by decide))⟩
  have priorities : fieldAt (matchRecordBytes e) 17 2 = e.priorities.toNat := by
    rw [matchRecordBytes_eq]
    exact numberOf_bigEndian 2 _ (e.priorities.isLt.trans (by decide))
  have action : dispositionOf (fieldAt (matchRecordBytes e) 22 1) = some e.action.disposition
      ∧ classChoiceOf (fieldAt (matchRecordBytes e) 23 1) = some e.action.classChoice
      ∧ markKindOf (fieldAt (matchRecordBytes e) 24 1) = some e.action.mark := by
    rw [matchRecordBytes_eq]
    exact action_fields e.action
  obtain ⟨hasType, etherType, hasVlan, vlan⟩ := optional
  obtain ⟨disposition, classChoice, mark⟩ := action
  simp only [readMatchRecord, valid, ingress, hasType, priorities, prioritySetOf_toNat, hasVlan, vlan, if_neg inRange,
    disposition, classChoice, mark, value, mask, etherType, optional_readBack, BitVec.ofNat_toNat, BitVec.setWidth_eq]

/-- An entry in its 13 bytes (section 12.3). -/
theorem readEntryRecord_bytes {e : Entry} (legal : e.wellFormed = true) : readEntryRecord (entryRecordBytes e) = .ok e := by
  obtain ⟨gates, guarded, ending⟩ := e
  have kind : fieldAt (entryRecordBytes ⟨gates, guarded, ending⟩) 0 1 = (entryKindByte ending).toNat := fieldAt_first _ _
  have gatesA : fieldAt (entryRecordBytes ⟨gates, guarded, ending⟩) 1 2 = gates.a.toNat :=
    numberOf_bigEndian 2 _ (gates.a.isLt.trans (by decide))
  have gatesB : fieldAt (entryRecordBytes ⟨gates, guarded, ending⟩) 3 2 = gates.b.toNat :=
    numberOf_bigEndian 2 _ (gates.b.isLt.trans (by decide))
  have guard : flagOf (fieldAt (entryRecordBytes ⟨gates, guarded, ending⟩) 5 1) = some guarded := flagOf_flagByte guarded
  have ends : readEntryEnd (entryRecordBytes ⟨gates, guarded, ending⟩) (entryKindByte ending).toNat = .ok ending := by
    have nextOf (next : EntryIndex) : numberOf (bigEndian 1 next.val) = next.val :=
      numberOf_bigEndian 1 _ (next.isLt.trans (by decide))
    cases ending with
    | tail => rfl
    | timed off next =>
      obtain ⟨low, high⟩ : 1 ≤ off ∧ off ≤ 1023 := of_decide_eq_true legal
      have offset : fieldAt (entryRecordBytes ⟨gates, guarded, .timed off next⟩) 7 2 = off :=
        numberOf_bigEndian 2 off (by omega)
      have hasOffset : flagOf (fieldAt (entryRecordBytes ⟨gates, guarded, .timed off next⟩) 6 1) = some true := rfl
      have hasSettle : flagOf (fieldAt (entryRecordBytes ⟨gates, guarded, .timed off next⟩) 9 1) = some false := rfl
      have hasNext : flagOf (fieldAt (entryRecordBytes ⟨gates, guarded, .timed off next⟩) 11 1) = some true := rfl
      have target : fieldAt (entryRecordBytes ⟨gates, guarded, .timed off next⟩) 12 1 = next.val := nextOf next
      simp [readEntryEnd, entryKindByte, hasOffset, offset, low, high, hasSettle, hasNext, target, Nat.le_of_lt_succ next.isLt]
    | step off settle next =>
      obtain ⟨low, high⟩ : 1 ≤ off ∧ off ≤ 1023 := of_decide_eq_true legal
      have offset : fieldAt (entryRecordBytes ⟨gates, guarded, .step off settle next⟩) 7 2 = off :=
        numberOf_bigEndian 2 off (by omega)
      have hasOffset : flagOf (fieldAt (entryRecordBytes ⟨gates, guarded, .step off settle next⟩) 6 1) = some true := rfl
      have hasSettle : flagOf (fieldAt (entryRecordBytes ⟨gates, guarded, .step off settle next⟩) 9 1) = some true := rfl
      have settles : fieldAt (entryRecordBytes ⟨gates, guarded, .step off settle next⟩) 10 1 = settle.toNat :=
        numberOf_bigEndian_toNat (n := 1) settle rfl
      have hasNext : flagOf (fieldAt (entryRecordBytes ⟨gates, guarded, .step off settle next⟩) 11 1) = some true := rfl
      have target : fieldAt (entryRecordBytes ⟨gates, guarded, .step off settle next⟩) 12 1 = next.val := nextOf next
      simp [readEntryEnd, entryKindByte, hasOffset, offset, low, high, hasSettle, settles, hasNext, target,
        Nat.le_of_lt_succ next.isLt]
  have known : ¬ 2 < (entryKindByte ending).toNat := by cases ending <;> simp [entryKindByte]
  simp only [readEntryRecord, kind, if_neg known, gatesA, gateSetOf_toNat, gatesB, guard, ends]

/-! ### Records judged field by field (R110, R32, R184) -/

/-- The read fails with the first failing field, and without one it gives a record with the property. -/
def Judged {α : Type} (failing : Option Nat) (read : Except Nat α) (P : α → Prop) : Prop :=
  (∀ k, failing = some k → read = .error k) ∧ (failing = none → ∃ e, read = .ok e ∧ P e)

section
variable {α : Type} {read : Except Nat α} {P : α → Prop}

theorem judged_field {k : Nat} {bad : Prop} [Decidable bad] {rest : List (Nat × Bool)} (fails : bad → read = .error k)
    (passes : ¬ bad → Judged (firstFailing rest) read P) : Judged (firstFailing ((k, decide bad) :: rest)) read P := by
  by_cases h : bad
  · have first : firstFailing ((k, decide bad) :: rest) = some k := by simp [firstFailing, h]
    rw [first]
    exact ⟨fun _ e => (Option.some.inj e) ▸ fails h, fun e => nomatch e⟩
  · have later : firstFailing ((k, decide bad) :: rest) = firstFailing rest := by simp [firstFailing, h]
    rw [later]
    exact passes h

theorem judged_read {e : α} (ok : read = .ok e) (h : P e) : Judged (firstFailing []) read P :=
  ⟨fun _ e => (nomatch e), fun _ => ⟨e, ok, h⟩⟩

theorem Judged.error_iff {failing : Option Nat} (h : Judged failing read P) (k : Nat) : read = .error k ↔ failing = some k := by
  obtain ⟨fails, passes⟩ := h
  refine ⟨fun e => ?_, fails k⟩
  cases f : failing with
  | none =>
    obtain ⟨x, ok, -⟩ := passes f
    rw [ok] at e
    cases e
  | some j =>
    have other := fails j f
    rw [e] at other
    cases other
    rfl

end

/-- What a Match Table record that is read holds (R110). -/
def MatchEntry.heldIn (b : List Byte) (e : MatchEntry) : Prop :=
  e.valid = decide (fieldAt b 0 1 = 1)
    ∧ [Ingress.portA, .portB, .either][fieldAt b 1 1]? = some e.ingress
    ∧ e.value.toNat = fieldAt b 2 6 ∧ e.mask.toNat = fieldAt b 8 6
    ∧ e.etherType.map BitVec.toNat = (if fieldAt b 14 1 = 1 then some (fieldAt b 15 2) else none)
    ∧ e.priorities.toNat = fieldAt b 17 2
    ∧ e.vlan.map BitVec.toNat = (if fieldAt b 19 1 = 1 then some (fieldAt b 20 2) else none)
    ∧ [Disposition.forward, .discard][fieldAt b 22 1]? = some e.action.disposition
    ∧ [ClassChoice.fixed 0, .fixed 1, .fixed 2, .fixed 3, .fixed 4, .fixed 5, .fixed 6, .fixed 7, .fromPriority][fieldAt b 23 1]?
        = some e.action.classChoice
    ∧ [MarkKind.noMark, .cycle, .step][fieldAt b 24 1]? = some e.action.mark

theorem toNat_ofNat_of_lt {w n : Nat} (h : n < 2 ^ w) : (BitVec.ofNat w n).toNat = n :=
  (BitVec.toNat_ofNat n w).trans (Nat.mod_eq_of_lt h)

/-- An optional value holds the number that its bytes spell. -/
theorem optional_toNat {w n : Nat} (present : Prop) [Decidable present] (h : present → n < 2 ^ w) :
    (if decide present then some (BitVec.ofNat w n) else none).map BitVec.toNat = if present then some n else none := by
  by_cases p : present
  · simp [p, Nat.mod_eq_of_lt (h p)]
  · simp [p]

theorem readMatchRecord_judged (b : List Byte) : Judged (firstFailing
    [(0, 1 < fieldAt b 0 1), (1, 2 < fieldAt b 1 1), (4, 1 < fieldAt b 14 1), (5, 512 ≤ fieldAt b 17 2),
      (6, 1 < fieldAt b 19 1 ∨ fieldAt b 19 1 = 1 ∧ 4095 < fieldAt b 20 2), (7, 1 < fieldAt b 22 1), (8, 8 < fieldAt b 23 1),
      (9, 2 < fieldAt b 24 1)]) (readMatchRecord b) (·.heldIn b) := by
  refine judged_field (fun bad => ?_) fun valid => ?_
  · simp only [readMatchRecord, flagOf_eq_none bad]
  replace valid := flagOf_legal valid
  refine judged_field (fun bad => ?_) fun legal => ?_
  · simp only [readMatchRecord, valid, listed_eq_none (ingressOf_eq _) bad]
  obtain ⟨ingress, ingressRead⟩ := listed_eq_some (ingressOf_eq _) legal
  refine judged_field (fun bad => ?_) fun hasType => ?_
  · simp only [readMatchRecord, valid, ingressRead, flagOf_eq_none bad]
  replace hasType := flagOf_legal hasType
  refine judged_field (fun bad => ?_) fun legal => ?_
  · simp only [readMatchRecord, valid, ingressRead, hasType, prioritySetOf, if_neg (not_lt.mpr bad)]
  have prioritiesBound := not_le.mp legal
  have priorities : prioritySetOf (fieldAt b 17 2) = some (BitVec.ofNat 9 (fieldAt b 17 2)) := if_pos prioritiesBound
  refine judged_field (fun bad => ?_) fun legal => ?_
  · rcases bad with bad | ⟨present, bad⟩
    · simp only [readMatchRecord, valid, ingressRead, hasType, priorities, flagOf_eq_none bad]
    · have hasVlan : flagOf (fieldAt b 19 1) = some true := by rw [present]; rfl
      simp only [readMatchRecord, valid, ingressRead, hasType, priorities, hasVlan, bad, and_self, if_true]
  obtain ⟨legal, vlanBound⟩ := not_or.mp legal
  have hasVlan := flagOf_legal legal
  have inRange : ¬(decide (fieldAt b 19 1 = 1) = true ∧ 4095 < fieldAt b 20 2) := by rwa [decide_eq_true_iff]
  refine judged_field (fun bad => ?_) fun legal => ?_
  · simp only [readMatchRecord, valid, ingressRead, hasType, priorities, hasVlan, if_neg inRange,
      listed_eq_none (dispositionOf_eq _) bad]
  obtain ⟨disposition, dispositionRead⟩ := listed_eq_some (dispositionOf_eq _) legal
  refine judged_field (fun bad => ?_) fun legal => ?_
  · simp only [readMatchRecord, valid, ingressRead, hasType, priorities, hasVlan, if_neg inRange, dispositionRead,
      listed_eq_none (classChoiceOf_eq _) bad]
  obtain ⟨classChoice, classRead⟩ := listed_eq_some (classChoiceOf_eq _) legal
  refine judged_field (fun bad => ?_) fun legal => ?_
  · simp only [readMatchRecord, valid, ingressRead, hasType, priorities, hasVlan, if_neg inRange, dispositionRead, classRead,
      listed_eq_none (markKindOf_eq _) bad]
  obtain ⟨mark, markRead⟩ := listed_eq_some (markKindOf_eq _) legal
  refine judged_read (e := ⟨decide (fieldAt b 0 1 = 1), ingress, BitVec.ofNat 48 (fieldAt b 2 6), BitVec.ofNat 48 (fieldAt b 8 6),
      if decide (fieldAt b 14 1 = 1) then some (BitVec.ofNat 16 (fieldAt b 15 2)) else none, BitVec.ofNat 9 (fieldAt b 17 2),
      if decide (fieldAt b 19 1 = 1) then some (BitVec.ofNat 12 (fieldAt b 20 2)) else none, ⟨disposition, classChoice, mark⟩⟩) ?_ ?_
  · simp only [readMatchRecord, valid, ingressRead, hasType, priorities, hasVlan, if_neg inRange, dispositionRead, classRead, markRead]
  · refine ⟨rfl, (ingressOf_eq _).symm.trans ingressRead, toNat_ofNat_of_lt (fieldAt_lt b 2 6),
      toNat_ofNat_of_lt (fieldAt_lt b 8 6), optional_toNat _ fun _ => fieldAt_lt b 15 2,
      toNat_ofNat_of_lt prioritiesBound, optional_toNat _ fun present => ?_, (dispositionOf_eq _).symm.trans dispositionRead,
      (classChoiceOf_eq _).symm.trans classRead, (markKindOf_eq _).symm.trans markRead⟩
    have bound := fun high => vlanBound ⟨present, high⟩
    omega

/-- What the optional fields of an entry record that is read hold, by its kind (R27, R32). -/
def EntryEnd.heldIn (b : List Byte) (kind : Nat) (e : EntryEnd) : Prop :=
  (kind = 0 → ∃ next : EntryIndex, next.val = fieldAt b 12 1 ∧ e = .timed (fieldAt b 7 2) next)
    ∧ (kind = 1 → ∃ (settle : Byte) (next : EntryIndex), settle.toNat = fieldAt b 10 1 ∧ next.val = fieldAt b 12 1
        ∧ e = .step (fieldAt b 7 2) settle next)
    ∧ (kind = 2 → e = .tail)

/-- A presence byte other than the one that the kind demands is illegal or the other one. -/
theorem flagOf_other {n : Nat} {need : Bool} (h : n ≠ need.toNat) : flagOf n = none ∨ flagOf n = some (!need) := by
  match n, need with
  | 0, true | 1, false => exact .inr rfl
  | 0, false | 1, true => exact absurd rfl h
  | n + 2, _ => exact .inl rfl

theorem readEntryEnd_judged (b : List Byte) {kind : Nat} (known : kind ≤ 2) : Judged (firstFailing
    [(4, fieldAt b 6 1 ≠ (if kind = 2 then 0 else 1) ∨ kind ≠ 2 ∧ ¬(1 ≤ fieldAt b 7 2 ∧ fieldAt b 7 2 ≤ 1023)),
      (5, fieldAt b 9 1 ≠ (if kind = 1 then 1 else 0)),
      (6, fieldAt b 11 1 ≠ (if kind = 2 then 0 else 1) ∨ kind ≠ 2 ∧ 31 < fieldAt b 12 1)])
    (readEntryEnd b kind) (·.heldIn b kind) := by
  have other : (if kind = 2 then 0 else 1) = (decide (kind ≠ 2)).toNat := by split_ifs with h <;> simp [h]
  have step : (if kind = 1 then 1 else 0) = (decide (kind = 1)).toNat := by split_ifs with h <;> simp [h]
  rw [other, step]
  have agrees (x : Bool) : ¬ x ≠ x := not_not.mpr rfl
  refine judged_field (fun bad => ?_) fun legal => ?_
  · by_cases present : fieldAt b 6 1 = (decide (kind ≠ 2)).toNat
    · obtain ⟨isOther, range⟩ := bad.resolve_left (not_not.mpr present)
      simp only [readEntryEnd, present, flagOf_toNat, if_neg (agrees _), if_pos (And.intro (decide_eq_true isOther) range)]
    · rcases flagOf_other present with e | e <;> simp only [readEntryEnd, e, if_pos (Bool.not_ne_self _)]
  obtain ⟨present, range⟩ := not_or.mp legal
  have hasOffset : flagOf (fieldAt b 6 1) = some (decide (kind ≠ 2)) := by rw [not_not.mp present, flagOf_toNat]
  rw [← decide_eq_true_iff (p := kind ≠ 2)] at range
  refine judged_field (fun bad => ?_) fun legal => ?_
  · rcases flagOf_other bad with e | e <;>
      simp only [readEntryEnd, hasOffset, if_neg (agrees _), if_neg range, e, if_pos (Bool.not_ne_self _)]
  have hasSettle : flagOf (fieldAt b 9 1) = some (decide (kind = 1)) := by rw [not_not.mp legal, flagOf_toNat]
  refine judged_field (fun bad => ?_) fun legal => ?_
  · by_cases present : fieldAt b 11 1 = (decide (kind ≠ 2)).toNat
    · obtain ⟨isOther, high⟩ := bad.resolve_left (not_not.mpr present)
      simp only [readEntryEnd, hasOffset, if_neg (agrees _), if_neg range, hasSettle, present, flagOf_toNat,
        if_pos (And.intro (decide_eq_true isOther) high)]
    · rcases flagOf_other present with e | e <;>
        simp only [readEntryEnd, hasOffset, if_neg (agrees _), if_neg range, hasSettle, e, if_pos (Bool.not_ne_self _)]
  obtain ⟨present, low⟩ := not_or.mp legal
  have hasNext : flagOf (fieldAt b 11 1) = some (decide (kind ≠ 2)) := by rw [not_not.mp present, flagOf_toNat]
  have target (h : kind ≠ 2) : (Fin.ofNat 32 (fieldAt b 12 1)).val = fieldAt b 12 1 :=
    Nat.mod_eq_of_lt (Nat.lt_succ_iff.mpr (not_lt.mp fun high => low ⟨h, high⟩))
  rw [← decide_eq_true_iff (p := kind ≠ 2)] at low
  have reads : readEntryEnd b kind = if kind = 0 then .ok (.timed (fieldAt b 7 2) (Fin.ofNat 32 (fieldAt b 12 1)))
      else if kind = 1 then .ok (.step (fieldAt b 7 2) (BitVec.ofNat 8 (fieldAt b 10 1)) (Fin.ofNat 32 (fieldAt b 12 1)))
      else .ok .tail := by
    simp only [readEntryEnd, hasOffset, if_neg (agrees _), if_neg range, hasSettle, hasNext, if_neg low]
  obtain rfl | rfl | rfl : kind = 0 ∨ kind = 1 ∨ kind = 2 := by omega
  · exact judged_read reads ⟨fun _ => ⟨_, target (by decide), rfl⟩, fun h => (nomatch h), fun h => (nomatch h)⟩
  · exact judged_read reads ⟨fun h => (nomatch h), fun _ => ⟨_, _, toNat_ofNat_of_lt (fieldAt_lt b 10 1), target (by decide), rfl⟩,
      fun h => (nomatch h)⟩
  · exact judged_read reads ⟨fun h => (nomatch h), fun h => (nomatch h), fun _ => rfl⟩

theorem readEntryRecord_judged (b : List Byte) : Judged (firstFailing
    [(0, 2 < fieldAt b 0 1), (1, 512 ≤ fieldAt b 1 2), (2, 512 ≤ fieldAt b 3 2), (3, 1 < fieldAt b 5 1),
      (4, fieldAt b 6 1 ≠ (if fieldAt b 0 1 = 2 then 0 else 1) ∨ fieldAt b 0 1 ≠ 2 ∧ ¬(1 ≤ fieldAt b 7 2 ∧ fieldAt b 7 2 ≤ 1023)),
      (5, fieldAt b 9 1 ≠ (if fieldAt b 0 1 = 1 then 1 else 0)),
      (6, fieldAt b 11 1 ≠ (if fieldAt b 0 1 = 2 then 0 else 1) ∨ fieldAt b 0 1 ≠ 2 ∧ 31 < fieldAt b 12 1)])
    (readEntryRecord b) (fun e => e.gates.a.toNat = fieldAt b 1 2 ∧ e.gates.b.toNat = fieldAt b 3 2
      ∧ e.guarded = decide (fieldAt b 5 1 = 1) ∧ e.ending.heldIn b (fieldAt b 0 1)) := by
  refine judged_field (fun bad => ?_) fun known => ?_
  · simp only [readEntryRecord, if_pos bad]
  refine judged_field (fun bad => ?_) fun legal => ?_
  · simp only [readEntryRecord, if_neg known, gateSetOf_illegal bad]
  have boundA := not_le.mp legal
  refine judged_field (fun bad => ?_) fun legal => ?_
  · simp only [readEntryRecord, if_neg known, gateSetOf_legal boundA, gateSetOf_illegal bad]
  have boundB := not_le.mp legal
  refine judged_field (fun bad => ?_) fun legal => ?_
  · simp only [readEntryRecord, if_neg known, gateSetOf_legal boundA, gateSetOf_legal boundB, flagOf_eq_none bad]
  have guarded := flagOf_legal legal
  obtain ⟨fails, passes⟩ := readEntryEnd_judged b (not_lt.mp known)
  refine ⟨fun k failing => ?_, fun none => ?_⟩
  · simp only [readEntryRecord, if_neg known, gateSetOf_legal boundA, gateSetOf_legal boundB, guarded, fails k failing]
  · obtain ⟨ending, read, held⟩ := passes none
    refine ⟨⟨⟨BitVec.ofNat 9 (fieldAt b 1 2), BitVec.ofNat 9 (fieldAt b 3 2)⟩, decide (fieldAt b 5 1 = 1), ending⟩, ?_,
      toNat_ofNat_of_lt boundA, toNat_ofNat_of_lt boundB, rfl, held⟩
    simp only [readEntryRecord, if_neg known, gateSetOf_legal boundA, gateSetOf_legal boundB, guarded, read]

/-- Settles O51: the bytes of both records, what they are read back as, and the first field that fails. -/
theorem recordsReadBack : Obligations.RecordsReadBack := by
  refine ⟨⟨fun n v => ⟨rfl, rfl⟩, fun b l => ⟨rfl, numberOf_cons b l⟩, numberOf_bigEndian, fun e => ?matchBytes, fun a => rfl,
      ?entryBytes⟩, fun e => ⟨?matchLength, readMatchRecord_bytes e⟩,
    ⟨fun e legal => ⟨?entryLength, readEntryRecord_bytes legal⟩, fun b e => readEntryRecord_legal⟩, ?matchFields, ?entryFields⟩
  case matchBytes =>
    obtain ⟨valid, ingress, value, mask, etherType, priorities, vlan, action⟩ := e
    cases etherType <;> cases vlan <;> cases ingress <;> rfl
  case entryBytes =>
    rintro g guarded body rfl
    refine ⟨fun off next => ?_, fun off settle next => ?_, rfl⟩
    · simp only [entryRecordBytes, entryOptions, optionalField, bigEndian_one]
      rfl
    · simp only [entryRecordBytes, entryOptions, optionalField, bigEndian_one, BitVec.ofNat_toNat, BitVec.setWidth_eq]
      rfl
  case matchLength => simp [matchRecordBytes]
  case entryLength => simp [entryRecordBytes]
  case matchFields =>
    rintro b f failing field rfl
    obtain rfl : f = fieldAt b := funext fun off => funext fun n => field off n
    have judged := readMatchRecord_judged b
    exact ⟨judged.error_iff, judged.2⟩
  case entryFields =>
    rintro b f failing field rfl
    obtain rfl : f = fieldAt b := funext fun off => funext fun n => field off n
    have judged := readEntryRecord_judged b
    exact ⟨judged.error_iff, judged.2⟩

end Sys2Proof.Machine
end

section
/-! PROOF. IDENTIFY and READ_STATUS (R144, R145, section 12.4): every part of the result at its offset. -/

namespace Sys2Proof.Machine

/-! ### Parts of a list -/

/-- A part of parts put together stands after those before it. -/
theorem flatten_part {α : Type} (parts : List (List α)) {k off : Nat} {part : List α} (at' : parts[k]? = some part)
    (before : ((parts.take k).map List.length).sum = off) : (parts.flatten.drop off).take part.length = part := by
  obtain ⟨h, rfl⟩ := List.getElem?_eq_some_iff.mp at'
  have flat : parts.flatten = (parts.take k).flatten ++ (parts[k] ++ (parts.drop (k + 1)).flatten) := by
    rw [← List.flatten_cons, ← List.flatten_append, List.cons_getElem_drop_succ, List.take_append_drop]
  rw [flat, List.drop_left' (by rw [List.length_flatten, before]), List.take_left]

/-- A piece of a part stands where the part does, and as much further as in it. -/
theorem drop_take_within {α : Type} {l part : List α} {off n : Nat} (h : (l.drop off).take n = part) (k m : Nat) (fits : k + m ≤ n) :
    (l.drop (off + k)).take m = (part.drop k).take m := by
  rw [← h, List.drop_take, List.take_take, List.drop_drop, Nat.min_eq_left (by omega)]

/-- Of records of equal size written one after the other the k-th stands after k sizes. -/
theorem flatMap_record {α β : Type} {f : α → List β} {n : Nat} (size : ∀ a, (f a).length = n) :
    ∀ (l : List α) (k : Nat) (h : k < l.length), ((l.flatMap f).drop (n * k)).take n = f l[k]
  | a :: l, 0, _ => by simp [← size a]
  | a :: l, k + 1, h => by
    have later : n * (k + 1) = (f a).length + n * k := by rw [size, Nat.mul_succ, Nat.add_comm]
    rw [List.flatMap_cons, later, List.drop_length_add_append, flatMap_record size l k]
    rfl

/-! ### The parts of the status -/

/-- The parts of the status in their order (section 12.4). -/
def statusParts (s : State) : List (List Byte) :=
  [bigEndian 6 s.time.toNat, trackerStatus s.tracker, sequencerStatus s, portStatus s .a, portStatus s .b,
    bigEndian 2 s.pool.freeRecords.length ++ bigEndian 2 s.pool.freeCells.length, queueStatus s .a, queueStatus s .b,
    [bankByte s.programs.active, if s.programs.commitPending then 1 else 0], agentStatus s.agent, noticeStatus s.notices]

theorem statusResult_eq (s : State) : statusResult s = (statusParts s).flatten := by
  simp [statusResult, statusParts, flagByte]

theorem history_length (t : Tracker) : ((t.history ++ List.replicate (16 - t.history.length) 0).take 16).length = 16 := by
  simp
  omega

theorem optionalTime_length (t : Option Time) : (optionalTime t).length = 7 := optionalField_length 6 _

theorem trackerStatus_length (t : Tracker) : (trackerStatus t).length = 78 := by
  have spans : (((t.history ++ List.replicate (16 - t.history.length) 0).take 16).flatMap (bigEndian 4)).length = 64 := by
    rw [List.length_flatMap, List.map_congr_left (fun x _ => bigEndian_length 4 x), List.map_const', history_length]
    rfl
  simp [trackerStatus, spans]

theorem transitionStatus_length (t : Option Transition) : (transitionStatus t).length = 8 := by
  cases t <;> simp [transitionStatus]

theorem sequencerStatus_length (s : State) : (sequencerStatus s).length = 43 := by
  simp [sequencerStatus, transitionStatus_length, optionalTime_length]

theorem transmitterStatus_length (s : State) (f : Option InFlight) : (transmitterStatus s f).length = 16 := by
  cases f <;> simp [transmitterStatus]

theorem portStatus_length (s : State) (p : Port) : (portStatus s p).length = 27 := by
  simp [portStatus, transmitterStatus_length, optionalTime_length]

theorem queueStatus_length (s : State) (p : Port) : (queueStatus s p).length = 36 := by
  rw [queueStatus, List.length_flatMap, List.map_congr_left (g := fun _ => 4) (by simp), List.map_const', Vector.length_toList]
  rfl

theorem agentStatus_length (a : Agent) : (agentStatus a).length = 19 := by simp [agentStatus]

theorem noticeStatus_length (n : NoticeQueue) : (noticeStatus n).length = 4 := by simp [noticeStatus]

/-- The sizes of the parts (section 12.4). -/
theorem statusParts_lengths (s : State) : (statusParts s).map List.length = [6, 78, 43, 27, 27, 4, 36, 36, 2, 19, 4] := by
  simp [statusParts, trackerStatus_length, sequencerStatus_length, portStatus_length, queueStatus_length, agentStatus_length,
    noticeStatus_length]

theorem statusResult_length (s : State) : (statusResult s).length = 282 := by
  rw [statusResult_eq, List.length_flatten, statusParts_lengths]
  rfl

/-- Each part of the status at its offset (section 12.4). -/
theorem statusResult_part (s : State) {k off n : Nat} {part : List Byte} (at' : (statusParts s)[k]? = some part)
    (size : part.length = n)
    (before : (([6, 78, 43, 27, 27, 4, 36, 36, 2, 19, 4] : List Nat).take k).sum = off) :
    ((statusResult s).drop off).take n = part := by
  rw [statusResult_eq, ← size]
  exact flatten_part _ at' (by rw [List.map_take, statusParts_lengths, before])

/-! ### What the parts hold -/

theorem optionalTime_eq (t : Option Time) : optionalTime t = match t with
    | some limit => 1 :: bigEndian 6 limit.toNat
    | none => List.replicate 7 0 := by
  cases t <;> rfl

theorem trackerStatus_head (t : Tracker) : (trackerStatus t).take 14 = [trackerStateByte t.state]
    ++ (match t.ref with
      | some ref => 1 :: bigEndian 4 ref
      | none => [0, 0, 0, 0, 0])
    ++ bigEndian 1 t.history.length ++ bigEndian 1 t.missing ++ bigEndian 6 t.boundary.toNat := by
  cases ref : t.ref <;> simp only [trackerStatus, ref] <;> rfl

theorem trackerStatus_span (t : Tracker) {k : Nat} (h : k < 16) :
    ((trackerStatus t).drop (14 + 4 * k)).take 4 = bigEndian 4 (t.history.getD k 0) := by
  have head : ([trackerStateByte t.state] ++ optionalField 4 t.ref ++ bigEndian 1 t.history.length ++ bigEndian 1 t.missing
      ++ bigEndian 6 t.boundary.toNat).length = 14 := by simp
  rw [trackerStatus, ← head, List.drop_length_add_append, flatMap_record (bigEndian_length 4) _ k (by rwa [history_length])]
  congr 1
  rw [List.getElem_take, List.getElem_append, List.getD_eq_getElem?_getD]
  split_ifs with inside
  · rw [List.getElem?_eq_getElem inside, Option.getD_some]
  · rw [List.getElem?_eq_none (not_lt.mp inside), List.getElem_replicate, Option.getD_none]

theorem sequencerStatus_eq (s : State) : sequencerStatus s
    = [sequencerStateByte s.sequencer.state, BitVec.ofNat 8 s.sequencer.current.val,
        entryKindByte (s.programs.activeBank.entry s.sequencer.current).ending, if s.sequencer.stepSeen then 1 else 0]
      ++ bigEndian 6 s.sequencer.origin.toNat ++ bigEndian 4 s.sequencer.span ++ bigEndian 6 s.sequencer.endTime.toNat
      ++ (match s.sequencer.pending with
        | some x => 1 :: BitVec.ofNat 8 x.target.val :: bigEndian 6 x.due.toNat
        | none => List.replicate 8 0)
      ++ bigEndian 4 s.sequencer.cycle.toNat
      ++ bigEndian 2 s.sequencer.presentation.a.gates.toNat ++ bigEndian 2 s.sequencer.presentation.b.gates.toNat
      ++ (match s.sequencer.presentation.a.limit with
        | some limit => 1 :: bigEndian 6 limit.toNat
        | none => List.replicate 7 0) := by
  have transition : transitionStatus s.sequencer.pending = match s.sequencer.pending with
      | some x => 1 :: BitVec.ofNat 8 x.target.val :: bigEndian 6 x.due.toNat
      | none => List.replicate 8 0 := by
    cases s.sequencer.pending with
    | none => rfl
    | some x =>
      rw [transitionStatus, bigEndian_one]
      rfl
  simp only [sequencerStatus, transition, optionalTime_eq]
  rfl

theorem portStatus_eq (s : State) (p : Port) : portStatus s p
    = [speedByte (s.speed p), linkByte (s.port p).link] ++ bigEndian 2 (s.sched p).presentation.gates.toNat
      ++ (match (s.sched p).presentation.limit with
        | some limit => 1 :: bigEndian 6 limit.toNat
        | none => List.replicate 7 0)
      ++ (match (s.sched p).inFlight with
        | some f => 1 :: BitVec.ofNat 8 (s.record f.record).queue.val :: bigEndian 2 (s.record f.record).length
            ++ bigEndian 6 f.start.toNat ++ bigEndian 6 f.due.toNat
        | none => List.replicate 16 0) := by
  unfold portStatus
  rw [optionalTime_eq]
  cases (s.sched p).inFlight <;> rfl

theorem queueStatus_queue (s : State) (p : Port) (q : QueueName) :
    ((queueStatus s p).drop (4 * q.val)).take 4 = bigEndian 2 (s.queue p q).frames ++ bigEndian 2 (s.queue p q).cells := by
  refine (flatMap_record (n := 4) (by simp) _ q.val (by simp)).trans ?_
  simp [State.queue]

theorem agentStatus_eq (a : Agent) : agentStatus a
    = [BitVec.ofNat 8 a.fifo.length, if a.session.isOpen then 1 else 0, portByte a.session.ownerPort]
      ++ bigEndian 6 a.session.ownerAddress.toNat ++ bigEndian 2 a.session.number.toNat
      ++ bigEndian 6 a.session.leaseExpiry.toNat ++ bigEndian 2 a.session.lastSequence.toNat := by
  rw [agentStatus, bigEndian_one]
  rfl

/-- Settles O37: the encodings, the bytes of IDENTIFY, and every part of the status. -/
theorem statusLaidOut : Obligations.StatusLaidOut := by
  refine ⟨⟨rfl, rfl, fun _ _ _ => rfl, rfl, rfl, rfl, rfl⟩, fun s => ?_⟩
  have tracker : ((statusResult s).drop 6).take 78 = trackerStatus s.tracker := statusResult_part s (k := 1) rfl (trackerStatus_length _) rfl
  have port (p : Port) : ((statusResult s).drop (127 + 27 * (portByte p).toNat)).take 27 = portStatus s p := by
    cases p
    · exact statusResult_part s (k := 3) rfl (portStatus_length _ _) rfl
    · exact statusResult_part s (k := 4) rfl (portStatus_length _ _) rfl
  have queues (p : Port) : ((statusResult s).drop (185 + 36 * (portByte p).toNat)).take 36 = queueStatus s p := by
    cases p
    · exact statusResult_part s (k := 6) rfl (queueStatus_length _ _) rfl
    · exact statusResult_part s (k := 7) rfl (queueStatus_length _ _) rfl
  refine ⟨?identify, ?identifyLength, statusResult_length s, statusResult_part s (k := 0) rfl (bigEndian_length _ _) rfl, ?tracker,
    fun k h => ?history, ?sequencer, fun p => (port p).trans (portStatus_eq s p), statusResult_part s (k := 5) rfl (by simp) rfl,
    fun p q => ?queue, statusResult_part s (k := 8) rfl rfl rfl, ?agent, ?notices⟩
  case identify => rfl
  case identifyLength => simp [identifyResult]
  case tracker => exact (drop_take_within tracker 0 14 (by decide)).trans (trackerStatus_head s.tracker)
  case history =>
    rw [← trackerStatus_span s.tracker h, ← drop_take_within tracker (14 + 4 * k) 4 (by omega), ← Nat.add_assoc]
  case sequencer =>
    exact (statusResult_part s (k := 2) rfl (sequencerStatus_length _) rfl).trans (sequencerStatus_eq s)
  case queue =>
    rw [drop_take_within (queues p) (4 * q.val) 4 (by omega), queueStatus_queue]
  case agent =>
    exact (statusResult_part s (k := 9) rfl (agentStatus_length _) rfl).trans (agentStatus_eq s.agent)
  case notices =>
    have last : ((statusResult s).drop 278).take 4 = noticeStatus s.notices :=
      statusResult_part s (k := 10) rfl (noticeStatus_length _) rfl
    have rest : ((statusResult s).drop 278).length ≤ 4 := by rw [List.length_drop, statusResult_length]
    rw [← List.take_of_length_le rest, last, noticeStatus, bigEndian_one]
    rfl

end Sys2Proof.Machine
end

section
/-! PROOF. What a raised notice and a lock loss do to the queues, the transmitters and the counters (R16, R59, R177, R179): they store frames of
notices alone, at the owner's port and in queue M, and flush nothing. -/

namespace Sys2Proof.Machine

/-- A property that the moves of raised notices, gate changes and a lock loss keep: a head is passed over or starts, a notice's frame is stored at the
owner's port, a presentation is replaced, an overrun is counted, and what is not traffic changes. A move that changes only what the property does not
read keeps it as it stands. -/
structure LossKeeps (P : State → Prop) : Prop where
  hold : ∀ s p h, P s → P (holdHead p h s)
  start : ∀ s p q h rest, (s.sched p).inFlight = none → (s.port p).link = .up → (s.queue p q).records = h :: rest →
    P s → P (startHead p q h rest s)
  store : ∀ s n h rest, s.agent.session.isOpen = true → s.pool.freeRecords = h :: rest →
    cellsNeeded (noticeFrame s n).length ≤ s.pool.freeCells.length → P s →
    P (storeAdmitted s.agent.session.ownerPort queueM (noticeFrame s n) h rest s)
  agent : ∀ s f, P s → P (s.countAgent f) := by intros; assumption
  notices : ∀ s n, P s → P { s with notices := n } := by intros; assumption
  present : ∀ s p x, P s → P (s.setSched p { s.sched p with presentation := x })
  flag : ∀ s p f, (s.sched p).inFlight = some f → P s →
    P ((s.setInFlight p (some { f with overrunCounted := true })).countPort p
      (fun c => { c with overruns := Count.up c.overruns }))
  groups : ∀ s x y, P s → P { s with counters := { s.counters with tracker := x, sequencer := y } } := by intros; assumption
  cadence : ∀ s x y z b, P s → P { s with tracker := x, sequencer := y, programs := z, pins := { s.pins with lock := b } } := by
    intros; assumption

section
variable {P : State → Prop} (k : LossKeeps P)
include k

theorem LossKeeps.considerQueues (p : Port) : ∀ (qs : List QueueName) (s : State), (s.sched p).inFlight = none →
    (s.port p).link = .up → P s → P (Machine.considerQueues p qs s)
  | [], _, _, _, h => h
  | q :: qs, s, idle, up, h => by
    unfold Machine.considerQueues
    split
    · split
      · exact LossKeeps.considerQueues p qs s idle up h
      · rename_i hd rest waiting
        split
        · exact k.start s p q hd rest idle up waiting h
        · exact LossKeeps.considerQueues p qs _ (by rwa [holdHead_sched]) (by rwa [holdHead_port]) (k.hold s p hd h)
    · exact LossKeeps.considerQueues p qs s idle up h

theorem LossKeeps.evaluate (p : Port) (s : State) (h : P s) : P (Machine.evaluate p s) := by
  unfold Machine.evaluate
  split
  · rename_i made
    simp only [Bool.and_eq_true, Option.isNone_iff_eq_none, beq_iff_eq] at made
    exact k.considerQueues p _ s made.1 made.2 h
  · exact h

theorem LossKeeps.acceptNotice {s : State} {n : Notice} (opened : s.agent.session.isOpen = true)
    (v : admissionVerdict s.agent.session.ownerPort queueM (noticeFrame s n).length s = none) (h : P s) :
    P (acceptFrame s.agent.session.ownerPort queueM (noticeFrame s n) s) := by
  obtain ⟨⟨r, rest, free⟩, room, -⟩ := admissionVerdict_none v
  have stored := k.store s n r rest opened free room h
  rw [acceptFrame_eq free]
  split
  · exact k.evaluate _ _ stored
  · exact stored

theorem LossKeeps.offerNotices : ∀ (fuel : Nat) (s : State), s.agent.session.isOpen = true → P s → P (Machine.offerNotices fuel s)
  | 0, _, _, h => h
  | fuel + 1, s, opened, h => by
    unfold Machine.offerNotices
    split
    · exact h
    · simp only
      split
      · exact h
      · rename_i v
        exact LossKeeps.offerNotices fuel _ (by simpa using opened) (k.notices _ _ (k.acceptNotice opened v h))

theorem LossKeeps.raiseNotice (d : NoticeDetail) (c : Count) (s : State) (h : P s) : P (Machine.raiseNotice d c s) := by
  unfold Machine.raiseNotice
  split
  · exact h
  · rename_i opened
    split
    · exact h
    · split
      · exact k.agent _ _ (k.notices s _ h)
      · exact k.offerNotices _ _ (by simpa using opened) (k.notices s _ h)

theorem LossKeeps.takeGateChange (p : Port) (x : Presentation) (s : State) (h : P s) : P (Machine.takeGateChange p x s) := by
  unfold Machine.takeGateChange
  simp only
  split
  · rename_i f flying
    split
    · exact k.flag _ p f flying (k.present s p x h)
    · exact k.present s p x h
  · exact k.evaluate p _ (k.present s p x h)

theorem LossKeeps.sequencer (s : State) (q : Sequencer) (h : P s) : P { s with sequencer := q } :=
  k.cadence s s.tracker q s.programs s.pins.lock h

theorem LossKeeps.presentTo (p : Port) (x : Presentation) (s : State) (h : P s) : P (Machine.presentTo p x s) := by
  unfold Machine.presentTo
  split
  · exact h
  · exact k.takeGateChange p x _ (k.sequencer s _ h)

theorem LossKeeps.applyPendingCommit (o : Occasion) (c : Count) (s : State) (h : P s) : P (Machine.applyPendingCommit o c s) := by
  unfold Machine.applyPendingCommit
  split
  · exact k.raiseNotice _ c _ (k.cadence s s.tracker s.sequencer _ s.pins.lock h)
  · exact h

theorem LossKeeps.sequencerLockLoss (s : State) (h : P s) : P (Machine.sequencerLockLoss s) := by
  unfold Machine.sequencerLockLoss
  split
  · have left : P (leaveEntry s) := by
      rw [leaveEntry_eq]
      exact k.groups { s with sequencer := { s.sequencer with deadline := none, settle := none, stepSeen := false, pending := none } }
        s.counters.tracker _ (k.sequencer s _ h)
    exact k.applyPendingCommit _ _ _ (k.presentTo .b _ _ (k.presentTo .a _ _ (k.sequencer _ _ left)))
  · exact h

theorem LossKeeps.lockLoss (cause : LossCause) (s : State) (h : P s) : P (Machine.lockLoss cause s) := by
  rw [lockLoss_eq]
  have raised := k.raiseNotice (.lockLost cause) (cycleAfterLockLoss s.sequencer) _
    (k.groups _ { s.counters.tracker with lockLosses := Count.up s.counters.tracker.lockLosses } s.counters.sequencer
      (k.cadence s (s.tracker.cleared cause.stateAfter) s.sequencer s.programs s.pins.lock h))
  exact k.sequencerLockLoss _ (k.cadence _ _ _ _ false raised)

theorem LossKeeps.trackerDisturbed (cause : LossCause) (s : State) (h : P s) : P (Machine.trackerDisturbed cause s) := by
  unfold Machine.trackerDisturbed
  cases s.tracker.state with
  | off | seeking => exact h
  | acquiring => exact k.cadence s _ s.sequencer s.programs s.pins.lock h
  | locked | holdover => exact k.lockLoss cause s h

end

/-! ### What stands -/

theorem State.sched_startHead (s : State) (p r : Port) (q : QueueName) (h : Handle) (rest : List Handle) (other : r ≠ p) :
    (startHead p q h rest s).sched r = s.sched r := by
  rw [startHead, State.sched_setInFlight, if_neg other, State.sched_setQueue, if_neg other]

theorem queue_startHead_ne (s : State) (p r : Port) (q u : QueueName) (h : Handle) (rest : List Handle) (other : ¬(r = p ∧ u = q)) :
    (startHead p q h rest s).queue r u = s.queue r u := by
  rw [startHead, State.queue_setInFlight, State.queue_setQueue, if_neg other]

theorem queue_holdHead (p r : Port) (h : Handle) (q : QueueName) (s : State) : (holdHead r h s).queue p q = s.queue p q :=
  State.queue_congr (holdHead_egress r h s) p q

theorem queue_present (s : State) (p r : Port) (x : Presentation) (q : QueueName) :
    (s.setSched r { s.sched r with presentation := x }).queue p q = s.queue p q := by
  cases p <;> cases r <;> rfl

theorem queue_flag (s : State) (p r : Port) (f : Option InFlight) (g : PortCounters → PortCounters) (q : QueueName) :
    ((s.setInFlight r f).countPort r g).queue p q = s.queue p q :=
  State.queue_setInFlight s r p q f

/-- The class queues of the port are empty. -/
def State.classQueuesEmpty (s : State) (p : Port) : Prop := ∀ q, q ≠ queueM → s.queue p q = Queue.empty

/-- Only frames of notices are stored, and they go into queue M (R179). -/
theorem classQueuesEmpty_lossKeeps (p : Port) : LossKeeps (·.classQueuesEmpty p) where
  hold s r h empty q other := (queue_holdHead p r h q s).trans (empty q other)
  start s r u h rest _ _ waiting empty q other := by
    refine (queue_startHead_ne s r p u q h rest ?_).trans (empty q other)
    rintro ⟨rfl, rfl⟩
    rw [empty q other] at waiting
    cases waiting
  store s n h rest _ _ _ empty q other := by
    rw [queue_storeAdmitted, if_neg fun same => other same.2]
    exact empty q other
  present s r x empty q other := (queue_present s p r x q).trans (empty q other)
  flag s r f _ empty q other := (queue_flag s p r _ _ q).trans (empty q other)

/-- The count of the records flushed from a queue (R126). -/
def State.flushedAt (s : State) (p : Port) (q : QueueName) : Count := ((s.counters.queues.get p)[q]).flushed

theorem flushedAt_countQueue (s : State) (p r : Port) (q u : QueueName) (f : QueueCounters → QueueCounters) :
    (s.countQueue p q f).flushedAt r u
      = if r = p ∧ u = q then (f (s.counters.queues.get p)[q]).flushed else s.flushedAt r u := by
  simp only [State.flushedAt, State.countQueue, Pair.modify, Pair.get_set]
  by_cases port : r = p
  · subst port
    by_cases queue : u = q
    · subst queue
      simp
    · have other : q.val ≠ u.val := fun e => queue (Fin.ext e.symm)
      simp [queue, Vector.getElem_set_ne, other]
  · simp [port]

/-- Counting something else at a queue does not count a flush. -/
theorem flushedAt_countQueue_same (s : State) (p r : Port) (q u : QueueName) {f : QueueCounters → QueueCounters}
    (keeps : ∀ c, (f c).flushed = c.flushed) : (s.countQueue p q f).flushedAt r u = s.flushedAt r u := by
  rw [flushedAt_countQueue, keeps]
  split
  · rename_i same
    rw [same.1, same.2]
    rfl
  · rfl

theorem flushedAt_congr {s t : State} (same : t.counters.queues = s.counters.queues) (p : Port) (q : QueueName) :
    t.flushedAt p q = s.flushedAt p q := by
  rw [State.flushedAt, same, State.flushedAt]

theorem holdHead_queueCounters (p : Port) (h : Handle) (s : State) : (holdHead p h s).counters.queues = s.counters.queues := by
  unfold holdHead
  split <;> rfl

theorem flushedAt_storeAdmitted (p r : Port) (q u : QueueName) (bytes : List Byte) (h : Handle) (rest : List Handle) (s : State) :
    (storeAdmitted p q bytes h rest s).flushedAt r u = s.flushedAt r u := by
  unfold storeAdmitted
  simp only
  rw [flushedAt_countQueue_same (f := fun c => { c with admitted := Count.up c.admitted }) _ _ _ _ _ fun _ => rfl]
  exact flushedAt_congr rfl r u

/-- A lock loss and a raised notice flush nothing. -/
theorem flushedAt_lossKeeps (p : Port) (c : QueueName → Count) : LossKeeps (fun t => ∀ q, t.flushedAt p q = c q) where
  hold _ r h counted q := (flushedAt_congr (holdHead_queueCounters r h _) p q).trans (counted q)
  start _ _ _ _ _ _ _ _ counted q := (flushedAt_congr rfl p q).trans (counted q)
  store _ _ _ _ _ _ _ counted q := (flushedAt_storeAdmitted _ _ _ _ _ _ _ _).trans (counted q)
  agent _ _ counted q := (flushedAt_congr rfl p q).trans (counted q)
  notices _ _ counted q := (flushedAt_congr rfl p q).trans (counted q)
  present _ _ _ counted q := (flushedAt_congr rfl p q).trans (counted q)
  flag _ _ _ _ counted q := (flushedAt_congr rfl p q).trans (counted q)
  groups _ _ _ counted q := (flushedAt_congr rfl p q).trans (counted q)
  cadence _ _ _ _ _ counted q := (flushedAt_congr rfl p q).trans (counted q)

/-! ### Flushes counted -/

theorem flushedAt_flushRecords (p r : Port) (q u : QueueName) : ∀ (hs : List Handle) (s : State),
    (flushRecords p q hs s).flushedAt r u
      = if r = p ∧ u = q then Count.upBy hs.length (s.flushedAt r u) else s.flushedAt r u
  | [], s => by simp [flushRecords, Count.upBy]
  | h :: hs, s => by
    rw [flushRecords, flushedAt_flushRecords p r q u hs, flushedAt_countQueue]
    split
    · rename_i same
      rw [same.1, same.2]
      rfl
    · rfl

/-- The flush of a port counts every record at its queue, and none at the other port (R126). -/
theorem flushedAt_flushPort (p r : Port) (u : QueueName) (s : State) : (flushPort p s).flushedAt r u
    = if r = p then Count.upBy (s.queue p u).records.length (s.flushedAt r u) else s.flushedAt r u := by
  have queues : ∀ (qs : List QueueName) (s : State), qs.Nodup → (qs.foldl (fun s q => flushQueue p q s) s).flushedAt r u
      = if r = p ∧ u ∈ qs then Count.upBy (s.queue p u).records.length (s.flushedAt r u) else s.flushedAt r u := by
    intro qs
    induction qs with
    | nil => exact fun s _ => by simp
    | cons q qs ih =>
      intro s distinct
      obtain ⟨new, distinct⟩ := List.nodup_cons.mp distinct
      have first : (flushQueue p q s).flushedAt r u
          = if r = p ∧ u = q then Count.upBy (s.queue p q).records.length (s.flushedAt r u) else s.flushedAt r u :=
        flushedAt_flushRecords p r q u _ s
      rw [List.foldl_cons, ih _ distinct, first, (flushQueue_queue p q u s).1]
      by_cases same : u = q
      · subst same
        simp [new]
      · simp [same]
  rw [flushPort, queues priorityOrder s (by decide)]
  have every : u ∈ priorityOrder := (by decide : ∀ u, u ∈ priorityOrder) u
  simp [every]

end Sys2Proof.Machine
end

section
/-! PROOF. RESET kind TRAFFIC (R146, R126, R17, R16): the aborts and the flushes, and what the tracker makes of them. -/

namespace Sys2Proof.Machine

/-! ### The tracker disturbed (R17) -/

theorem trackerDisturbed_idle {s : State} (cause : LossCause) (h : s.tracker.state = .off ∨ s.tracker.state = .seeking) :
    trackerDisturbed cause s = s := by
  unfold trackerDisturbed
  rcases h with st | st <;> rw [st]

theorem trackerDisturbed_acquiring {s : State} (cause : LossCause) (h : s.tracker.state = .acquiring) :
    trackerDisturbed cause s = { s with tracker := s.tracker.cleared .seeking } := by
  unfold trackerDisturbed
  rw [h]
  rfl

theorem trackerDisturbed_locked {s : State} (cause : LossCause) (h : s.tracker.state.isLocked = true) :
    trackerDisturbed cause s = lockLoss cause s := by
  unfold trackerDisturbed
  cases st : s.tracker.state with
  | locked | holdover => rfl
  | off | seeking | acquiring =>
    rw [st] at h
    cases h

/-- A lock loss after some traffic comes to what it comes to before it, but for traffic (R16, R52, R59). -/
theorem lockLoss_afterTraffic {s x : State} (cause : LossCause) (same : s.sameButTraffic x)
    (counted : x.counters.tracker = s.counters.tracker ∧ x.counters.sequencer = s.counters.sequencer) :
    (lockLoss cause x).tracker = s.tracker.cleared cause.stateAfter
      ∧ (lockLoss cause x).pins = { s.pins with lock := false }
      ∧ (lockLoss cause x).counters.tracker
          = { s.counters.tracker with lockLosses := Count.up s.counters.tracker.lockLosses }
      ∧ (lockLoss cause x).counters.sequencer = s.lossCounters
      ∧ (lockLoss cause x).sequencer = s.lossSequencer ∧ (lockLoss cause x).programs = s.lossPrograms
      ∧ s.raises s.lossCycle (s.lossNotices cause) (lockLoss cause x) := by
  obtain ⟨-, pins, -, -, -, tracker, sequencer, programs, -, config, notices, -⟩ := same.fields
  obtain ⟨cleared, -⟩ := lockLoss_tracker cause x
  obtain ⟨low, cancels⟩ := lockLoss_counts cause x
  obtain ⟨walk, store, raised⟩ := lockLoss_raises cause x
  have losses := lockLoss_groups cause x
  simp only [State.lossCycle, State.lossNotices, sequencer, programs] at raised
  refine ⟨by rw [cleared, tracker], by rw [low, pins], by rw [losses, counted.1], ?_, ?_, ?_, raised.before same.toWalk.toCadence notices⟩
  · rw [cancels, State.lossCounters, sequencer, counted.2, State.lossCounters]
  · rw [walk, State.lossSequencer, sequencer, config, State.lossSequencer]
  · rw [store, State.lossPrograms, sequencer, programs, State.lossPrograms]

/-! ### The aborts -/

/-- An abort at a TRAFFIC reset counts the record in flight at its queue, when the record names the port (R126). -/
theorem flushedAt_trafficAbort {p : Port} {s : State} (named : ∀ h ∈ s.inFlightRecord p, (s.record h).port = p) (r : Port)
    (u : QueueName) : (trafficAbort p s).flushedAt r u
      = if r = p then Count.upBy ((s.inFlightRecord p).filter (fun h => (s.record h).queue == u)).length (s.flushedAt r u)
        else s.flushedAt r u := by
  unfold trafficAbort
  cases flying : (s.sched p).inFlight with
  | none => simp [State.inFlightRecord, flying, Count.upBy]
  | some f =>
    have listed : s.inFlightRecord p = [f.record] := by rw [State.inFlightRecord, flying]; rfl
    have port : (s.record f.record).port = p := named _ (by rw [listed]; exact List.mem_singleton_self _)
    simp only
    rw [flushedAt_congr (congrArg Counters.queues (abortTransmission_counters p _)), flushedAt_countQueue, port, listed]
    by_cases here : r = p
    · subst here
      by_cases queue : u = (s.record f.record).queue
      · subst queue
        simp [Count.upBy, State.flushedAt]
      · simp [queue, Ne.symm queue, Count.upBy]
    · simp [here]

/-- An abort leaves the queues of every port and the other port's transmitter alone (R75). -/
theorem trafficAbort_sched (p r : Port) (s : State) :
    (trafficAbort p s).sched r = if r = p then { s.sched p with inFlight := none } else s.sched r := by
  obtain ⟨-, -, -, -, -, egress, -⟩ := trafficAbort_same p s
  rw [State.sched, egress, Pair.get_set]
  rfl

/-! ### Both ports cleared -/

/-- Both transmitters aborted (R146, step 1). -/
def trafficAborted (s : State) : State := trafficAbort .b (trafficAbort .a s)

/-- Both transmitters aborted and all 18 queues flushed (R146, steps 1 and 2). -/
def trafficCleared (s : State) : State := flushPort .b (flushPort .a (trafficAborted s))

theorem trafficCleared_same (s : State) : s.sameButTraffic (trafficCleared s) := by
  obtain ⟨a, -⟩ := trafficAbort_same .a s
  obtain ⟨b, -⟩ := trafficAbort_same .b (trafficAbort .a s)
  exact ((a.trans b).trans (flushPort_same .a _)).trans (flushPort_same .b _)

theorem trafficCleared_config (s : State) : (trafficCleared s).config = s.config := by
  obtain ⟨-, -, -, -, -, -, -, -, -, config, -⟩ := (trafficCleared_same s).fields
  exact config

theorem trafficReset_disabled {s : State} (off : s.config.trackerEnable = false) : trafficReset s = trafficCleared s := by
  have still : ¬ (trafficCleared s).config.trackerEnable = true := by simp [trafficCleared_config, off]
  unfold trafficReset trafficCleared trafficAborted at *
  simp only [still, if_false, Bool.false_eq_true]

theorem trafficReset_enabled {s : State} (on : s.config.trackerEnable = true) :
    trafficReset s = trackerDisturbed .trafficReset (trafficCleared s) := by
  have still : (trafficCleared s).config.trackerEnable = true := by rw [trafficCleared_config, on]
  unfold trafficReset trafficCleared trafficAborted at *
  simp only [still, if_true]

section
variable (s : State)

theorem trafficAborted_sched (p : Port) : (trafficAborted s).sched p = { s.sched p with inFlight := none } := by
  rw [trafficAborted, trafficAbort_sched, trafficAbort_sched, trafficAbort_sched]
  cases p <;> rfl

theorem trafficAborted_flushOrder (p : Port) : (trafficAborted s).flushOrder p = s.flushOrder p := by
  simp only [State.flushOrder, State.queue, trafficAborted_sched]

/-- The flush of both ports, one after the other (R126). -/
theorem trafficCleared_flushes : (trafficAborted s).freesAt (flushPort .a (trafficAborted s)) .a (s.flushOrder .a)
    ∧ (flushPort .a (trafficAborted s)).freesAt (trafficCleared s) .b (s.flushOrder .b) := by
  obtain ⟨first, -⟩ := flushPort_frees .a (trafficAborted s)
  obtain ⟨second, -⟩ := flushPort_frees .b (flushPort .a (trafficAborted s))
  have order : (flushPort .a (trafficAborted s)).flushOrder .b = s.flushOrder .b := by
    rw [← trafficAborted_flushOrder s .b]
    simp only [State.flushOrder, State.queue]
    rw [show (flushPort .a (trafficAborted s)).sched .b = (trafficAborted s).sched .b from first.others]
  rw [trafficAborted_flushOrder] at first
  rw [order] at second
  exact ⟨first, second⟩

/-- A scheduler that keeps what it presents and has an idle transmitter differs in its queues at most. -/
theorem Egress.emptied {e d : Egress} (presents : e.presentation = d.presentation) (idle : e.inFlight = none) :
    e = { d with inFlight := none, queues := e.queues } := by
  cases e
  cases presents
  cases idle
  rfl

/-- The transmitters are idle and the queues empty; the schedulers keep what they present (R146). -/
theorem trafficCleared_sched (p : Port) :
    (trafficCleared s).sched p = { s.sched p with inFlight := none, queues := ((trafficCleared s).sched p).queues }
      ∧ ∀ q, (trafficCleared s).queue p q = Queue.empty := by
  obtain ⟨first, emptyA, idleA⟩ := flushPort_frees .a (trafficAborted s)
  obtain ⟨second, emptyB, idleB⟩ := flushPort_frees .b (flushPort .a (trafficAborted s))
  have others : (trafficCleared s).sched .a = (flushPort .a (trafficAborted s)).sched .a := second.others
  cases p with
  | a =>
    refine ⟨Egress.emptied ?_ ?_, fun q => ?_⟩
    · rw [others, first.presentation, trafficAborted_sched]
    · rw [others, idleA, trafficAborted_sched]
    · rw [State.queue, others]
      exact emptyA q
  | b =>
    have before : (flushPort .a (trafficAborted s)).sched .b = (trafficAborted s).sched .b := first.others
    refine ⟨Egress.emptied ?_ ?_, emptyB⟩
    · exact second.presentation.trans (by rw [before, trafficAborted_sched])
    · exact idleB.trans (by rw [before, trafficAborted_sched])

/-- The records freed, in their order: the aborts, then the flushes (R125, R126, log entry 22). -/
def State.freedByReset : List Handle :=
  s.inFlightRecord .a ++ s.inFlightRecord .b ++ s.flushOrder .a ++ s.flushOrder .b

theorem trafficAbort_inFlightRecord : (trafficAbort .a s).inFlightRecord .b = s.inFlightRecord .b := by
  rw [State.inFlightRecord, trafficAbort_sched]
  rfl

theorem trafficCleared_freeRecords : (trafficCleared s).pool.freeRecords = s.pool.freeRecords ++ s.inFlightRecord .a
    ++ s.inFlightRecord .b ++ s.flushOrder .a ++ s.flushOrder .b := by
  obtain ⟨-, abortA, -⟩ := trafficAbort_same .a s
  obtain ⟨-, abortB, -⟩ := trafficAbort_same .b (trafficAbort .a s)
  obtain ⟨first, second⟩ := trafficCleared_flushes s
  rw [second.records, first.records, trafficAborted, abortB, abortA, trafficAbort_inFlightRecord]

theorem trafficCleared_memory : (trafficCleared s).pool.memory = s.pool.memory := by
  obtain ⟨-, -, -, -, abortA, -⟩ := trafficAbort_same .a s
  obtain ⟨-, -, -, -, abortB, -⟩ := trafficAbort_same .b (trafficAbort .a s)
  obtain ⟨first, second⟩ := trafficCleared_flushes s
  rw [second.memory, first.memory, trafficAborted, abortB, abortA]

theorem trafficCleared_counters :
    (trafficCleared s).counters = { s.counters with queues := (trafficCleared s).counters.queues } := by
  obtain ⟨-, -, -, -, -, -, abortA⟩ := trafficAbort_same .a s
  obtain ⟨-, -, -, -, -, -, abortB⟩ := trafficAbort_same .b (trafficAbort .a s)
  obtain ⟨first, second⟩ := trafficCleared_flushes s
  rw [second.counters, first.counters, trafficAborted, abortB, abortA]

section
variable {s}
variable (whole : s.poolWhole)
include whole

/-- In a sound pool the records that are freed are distinct, and so the record in flight at port B stands until its own abort (R118). -/
theorem trafficAbort_record_b {h : Handle} (mem : h ∈ s.inFlightRecord .b) : (trafficAbort .a s).record h = s.record h := by
  obtain ⟨-, -, -, stands, -⟩ := trafficAbort_same .a s
  have distinct := whole.freed_nodup
  refine stands h fun first => ?_
  obtain ⟨distinct, -⟩ := List.nodup_append.mp distinct
  obtain ⟨distinct, -⟩ := List.nodup_append.mp distinct
  obtain ⟨-, -, ne⟩ := List.nodup_append.mp distinct
  exact ne h first h mem rfl

theorem trafficAborted_record {h : Handle} (mem : h ∈ s.flushOrder .a ++ s.flushOrder .b) :
    (trafficAborted s).record h = s.record h := by
  obtain ⟨-, -, -, standsA, -⟩ := trafficAbort_same .a s
  obtain ⟨-, -, -, standsB, -⟩ := trafficAbort_same .b (trafficAbort .a s)
  have distinct := whole.freed_nodup
  rw [List.append_assoc] at distinct
  obtain ⟨-, -, ne⟩ := List.nodup_append.mp distinct
  rw [trafficAborted, standsB h fun flies => ?_, standsA h fun flies => ?_]
  · exact ne h (List.mem_append_left _ flies) h mem rfl
  · rw [trafficAbort_inFlightRecord] at flies
    exact ne h (List.mem_append_right _ flies) h mem rfl

theorem trafficCleared_freeCells : (trafficCleared s).pool.freeCells = s.pool.freeCells
    ++ s.freedByReset.flatMap (fun h => (s.record h).cells) := by
  obtain ⟨-, -, abortA, -⟩ := trafficAbort_same .a s
  obtain ⟨-, -, abortB, -⟩ := trafficAbort_same .b (trafficAbort .a s)
  obtain ⟨first, second⟩ := trafficCleared_flushes s
  have distinct := whole.freed_nodup
  rw [List.append_assoc] at distinct
  obtain ⟨-, flushed, -⟩ := List.nodup_append.mp distinct
  obtain ⟨distinctA, distinctB, ne⟩ := List.nodup_append.mp flushed
  have inB : (s.inFlightRecord .b).flatMap (fun h => ((trafficAbort .a s).record h).cells)
      = (s.inFlightRecord .b).flatMap (fun h => (s.record h).cells) :=
    List.flatMap_congr fun h mem => by rw [trafficAbort_record_b whole mem]
  have queuedA : (s.flushOrder .a).flatMap (fun h => ((trafficAborted s).record h).cells)
      = (s.flushOrder .a).flatMap (fun h => (s.record h).cells) :=
    List.flatMap_congr fun h mem => by rw [trafficAborted_record whole (List.mem_append_left _ mem)]
  have queuedB : (s.flushOrder .b).flatMap (fun h => ((flushPort .a (trafficAborted s)).record h).cells)
      = (s.flushOrder .b).flatMap (fun h => (s.record h).cells) :=
    List.flatMap_congr fun h mem => by
      rw [first.keeps h fun mem' => ne h mem' h mem rfl, trafficAborted_record whole (List.mem_append_right _ mem)]
  rw [second.cells distinctB, first.cells distinctA, queuedA, queuedB, trafficAborted, abortB, abortA, trafficAbort_inFlightRecord, inB]
  simp only [State.freedByReset, List.flatMap_append, List.append_assoc]

theorem trafficCleared_flushedAt (p : Port) (q : QueueName) : (trafficCleared s).flushedAt p q
    = Count.upBy ((s.queue p q).records.length + ((s.inFlightRecord p).filter (fun h => (s.record h).queue == q)).length)
      (s.flushedAt p q) := by
  have ⟨_, _, _, _, named, _⟩ := whole
  have flies : (s.inFlightRecord .b).filter (fun h => ((trafficAbort .a s).record h).queue == q)
      = (s.inFlightRecord .b).filter (fun h => (s.record h).queue == q) :=
    List.filter_congr fun h mem => by rw [trafficAbort_record_b whole mem]
  have namedB : ∀ h ∈ (trafficAbort .a s).inFlightRecord .b, ((trafficAbort .a s).record h).port = .b := by
    rw [trafficAbort_inFlightRecord]
    exact fun h mem => by rw [trafficAbort_record_b whole mem]; exact named .b h mem
  have queue (r : Port) : (trafficAborted s).queue r q = s.queue r q := by rw [State.queue, trafficAborted_sched]; rfl
  have other : (flushPort .a (trafficAborted s)).queue .b q = s.queue .b q := by
    obtain ⟨first, -⟩ := trafficCleared_flushes s
    rw [← queue .b, State.queue, show (flushPort .a (trafficAborted s)).sched .b = (trafficAborted s).sched .b from first.others]
    rfl
  rw [trafficCleared, flushedAt_flushPort, flushedAt_flushPort, other, queue, trafficAborted, flushedAt_trafficAbort namedB,
    flushedAt_trafficAbort (named .a), trafficAbort_inFlightRecord, flies]
  cases p <;> simp [Count.upBy_add, Nat.add_comm]

end

end

theorem trafficReset_cadence (s : State) : s.sameButCadence (trafficReset s) := by
  have cleared := (trafficCleared_same s).toWalk.toCadence
  cases enable : s.config.trackerEnable with
  | false =>
    rw [trafficReset_disabled enable]
    exact cleared
  | true =>
    rw [trafficReset_enabled enable]
    exact cleared.trans (trackerDisturbed_cadence _ _)

/-- What the moves of a lock loss keep, and both ports cleared has, a TRAFFIC reset has. -/
theorem LossKeeps.trafficReset {P : State → Prop} (k : LossKeeps P) {s : State} (h : P (trafficCleared s)) :
    P (Machine.trafficReset s) := by
  cases enable : s.config.trackerEnable with
  | false =>
    rw [trafficReset_disabled enable]
    exact h
  | true =>
    rw [trafficReset_enabled enable]
    exact k.trackerDisturbed _ _ h

section
variable {s : State}

theorem trafficCleared_tracker : (trafficCleared s).tracker = s.tracker := by
  obtain ⟨-, -, -, -, -, tracker, -⟩ := (trafficCleared_same s).fields
  exact tracker

theorem trafficReset_idle (h : s.config.trackerEnable = false ∨ s.tracker.state = .off ∨ s.tracker.state = .seeking) :
    trafficReset s = trafficCleared s := by
  cases enable : s.config.trackerEnable with
  | false => exact trafficReset_disabled enable
  | true =>
    rw [trafficReset_enabled enable]
    exact trackerDisturbed_idle _ (by rw [trafficCleared_tracker]; simpa [enable] using h)

theorem trafficReset_acquiring (enable : s.config.trackerEnable = true) (h : s.tracker.state = .acquiring) :
    trafficReset s = { trafficCleared s with tracker := s.tracker.cleared .seeking } := by
  rw [trafficReset_enabled enable, trackerDisturbed_acquiring _ (by rw [trafficCleared_tracker, h]), trafficCleared_tracker]

theorem trafficReset_locked (enable : s.config.trackerEnable = true) (h : s.tracker.state.isLocked = true) :
    trafficReset s = lockLoss .trafficReset (trafficCleared s) := by
  rw [trafficReset_enabled enable]
  exact trackerDisturbed_locked _ (by rw [trafficCleared_tracker, h])

theorem State.sched_setTracker (s : State) (t : Tracker) (p : Port) : (s.setTracker t).sched p = s.sched p := rfl

theorem State.queue_setTracker (s : State) (t : Tracker) (p : Port) (q : QueueName) : (s.setTracker t).queue p q = s.queue p q := rfl

theorem State.setTracker_self (s : State) : s.setTracker s.tracker = s := rfl

/-- Short of a lock loss a TRAFFIC reset changes traffic and the tracker alone (R17). -/
theorem trafficReset_unlocked (h : s.config.trackerEnable = false ∨ s.tracker.state.isLocked = false) :
    ∃ tr, trafficReset s = (trafficCleared s).setTracker tr := by
  cases enable : s.config.trackerEnable with
  | false => exact ⟨_, (trafficReset_disabled enable).trans (State.setTracker_self _).symm⟩
  | true =>
    have unlocked : s.tracker.state.isLocked = false := by simpa [enable] using h
    cases st : s.tracker.state with
    | off => exact ⟨_, (trafficReset_idle (.inr (.inl st))).trans (State.setTracker_self _).symm⟩
    | seeking => exact ⟨_, (trafficReset_idle (.inr (.inr st))).trans (State.setTracker_self _).symm⟩
    | acquiring => exact ⟨_, trafficReset_acquiring enable st⟩
    | locked | holdover =>
      rw [st] at unlocked
      cases unlocked

end

/-- Settles O8: the kind of the reset, both ports cleared, and the tracker by its state. -/
theorem trafficResetClearsTraffic : Obligations.TrafficResetClearsTraffic := by
  rintro s slot rest r serves rfl owner
  have done {a : Answer} {u : State} {kind : Byte} (args : (requestOf slot).args = [kind])
      (h : runResetTraffic (requestOf slot) (s.owned rest) = .answer u a) : executes .resetTraffic s (requestOf slot) a u :=
    executes_withArguments rfl serves owner (by rw [args]; rfl) h
  refine ⟨fun kind args illegal => done args (if_neg ?_), fun args => ?_⟩
  · rw [args, fieldAt_first]
    exact fun zero => illegal (BitVec.eq_of_toNat_eq zero)
  let v := s.owned rest
  have same := trafficCleared_same v
  have counters := trafficCleared_counters v
  obtain ⟨-, pins, -, -, -, -, sequencer, programs, -, -, notices, -⟩ := same.fields
  have groups : (trafficCleared v).counters.tracker = s.counters.tracker
      ∧ (trafficCleared v).counters.sequencer = s.counters.sequencer := by
    rw [counters]
    exact ⟨rfl, rfl⟩
  refine ⟨trafficCleared v, trafficReset v, done args (if_pos (by rw [args]; rfl)), same, trafficCleared_sched v,
    trafficCleared_freeRecords v, fun whole => trafficCleared_freeCells (s := v) whole, trafficCleared_memory v, counters,
    trafficReset_idle (s := v), trafficReset_acquiring (s := v), trafficReset_locked (s := v), trafficReset_cadence v, ?classes,
    fun whole p => ?flushed, fun unlocked => ?unlocked, fun idle => ?idle, fun enable moved => ?moved, fun enable locked => ?locked⟩
  case classes =>
    exact fun p => (classQueuesEmpty_lossKeeps p).trafficReset fun q _ => (trafficCleared_sched v p).2 q
  case flushed =>
    exact (flushedAt_lossKeeps p _).trafficReset fun q => trafficCleared_flushedAt (s := v) whole p q
  case unlocked =>
    obtain ⟨tr, is⟩ := trafficReset_unlocked (s := v) unlocked
    rw [is]
    simp only [State.setTracker_fields]
    refine ⟨sequencer.symm, programs.symm, pins.symm, notices.symm, groups.1.symm, fun p => ?_⟩
    obtain ⟨sched, empty⟩ := trafficCleared_sched v p
    rw [State.sched_setTracker, State.queue_setTracker]
    exact ⟨congrArg Egress.inFlight sched, empty queueM⟩
  case idle =>
    rw [trafficReset_idle (s := v) idle]
    exact trafficCleared_tracker
  case moved =>
    rcases moved with acquiring | locked
    · rw [trafficReset_acquiring (s := v) enable acquiring]
      rfl
    · rw [trafficReset_locked (s := v) enable locked]
      obtain ⟨tracker, -⟩ := lockLoss_afterTraffic (s := v) .trafficReset same groups
      exact tracker
  case locked =>
    rw [trafficReset_locked (s := v) enable locked]
    obtain ⟨-, loses⟩ := lockLoss_afterTraffic (s := v) .trafficReset same groups
    exact loses

end Sys2Proof.Machine
end

section
/-! PROOF. A link down event (R89, R88, R17, R75, R126): the port emptied, and what the tracker and the notices bring there afterwards. -/

namespace Sys2Proof.Machine

/-! ### Stored frames that stand -/

/-- A cell's bytes stand where a frame is stored in other cells (R117). -/
theorem loadFrame_storeFrame_other {cells taken : List CellNo} (apart : ∀ c ∈ cells, c ∉ taken) (m : Memory) (bytes : List Byte)
    (n : Nat) : loadFrame (storeFrame m taken bytes) cells n = loadFrame m cells n := by
  unfold loadFrame
  refine congrArg (List.take n) (List.flatMap_congr fun c mem => List.map_congr_left fun i inside => ?_)
  exact storeFrame_read_other taken bytes m _ fun d memD =>
    cellAddress_apart c d i (fun same => apart c mem (same ▸ memD)) (List.mem_range.mp inside)

/-- In a sound pool a frame that is stored leaves those of the held records alone (R117, R118). -/
theorem frameBytes_storeAdmitted_held {s : State} (whole : s.poolWhole) (p : Port) (q : QueueName) (bytes : List Byte) {h k : Handle}
    {rest : List Handle} (free : s.pool.freeRecords = h :: rest) (held : k ∈ s.heldRecords) :
    (storeAdmitted p q bytes h rest s).frameBytes k = s.frameBytes k := by
  have other : k ≠ h := by
    rintro rfl
    have distinct := whole.nodup
    rw [free] at distinct
    exact (List.nodup_cons.mp distinct).1 (List.mem_append_right _ held)
  obtain ⟨-, cells, -⟩ := whole
  have distinct := cells.nodup_iff.mpr (List.nodup_finRange 512)
  obtain ⟨-, -, ne⟩ := List.nodup_append.mp distinct
  rw [State.frameBytes, record_storeAdmitted, if_neg other]
  refine loadFrame_storeFrame_other (fun c mem taken => ?_) _ _ _
  exact ne c (List.mem_of_mem_take taken) c (List.mem_flatMap.mpr ⟨k, held, mem⟩) rfl

/-! ### What a lock loss and notices leave at a port -/

/-- The port is DOWN and its transmitter idle. -/
def State.downAndIdle (s : State) (p : Port) : Prop := (s.port p).link = .down ∧ (s.sched p).inFlight = none

theorem downAndIdle_lossKeeps (p : Port) : LossKeeps (·.downAndIdle p) where
  hold _ r h := by
    rintro ⟨down, idle⟩
    exact ⟨by rwa [holdHead_port], by rwa [holdHead_sched]⟩
  start s r q h rest _ up _ := by
    rintro ⟨down, idle⟩
    refine ⟨down, ?_⟩
    rw [State.sched_startHead s r p q h rest ?_]
    · exact idle
    · rintro rfl
      rw [up] at down
      cases down
  store _ _ _ _ _ _ _ := by
    rintro ⟨down, idle⟩
    exact ⟨down, (inFlight_storeAdmitted p).trans idle⟩
  present s r x := by
    rintro ⟨down, idle⟩
    refine ⟨down, ?_⟩
    rw [State.sched_setSched]
    split
    · rename_i same
      subst same
      exact idle
    · exact idle
  flag s r f flying := by
    rintro ⟨down, idle⟩
    refine ⟨down, (congrArg Egress.inFlight ((State.sched_setInFlight s r p _).trans (if_neg ?_))).trans idle⟩
    rintro rfl
    rw [idle] at flying
    cases flying

/-- Without a session, or with the owner at the other port, no notice reaches queue M of the port (R177, R179). -/
def State.managementUnreached (s : State) (p : Port) : Prop :=
  (s.agent.session.isOpen = false ∨ s.agent.session.ownerPort ≠ p) ∧ s.queue p queueM = Queue.empty

theorem managementUnreached_lossKeeps (p : Port) : LossKeeps (·.managementUnreached p) where
  hold s r h := by
    rintro ⟨unreached, empty⟩
    obtain ⟨-, -, -, -, -, -, -, -, agent, -⟩ := (holdHead_same r h s).fields
    exact ⟨by rwa [agent], (queue_holdHead p r h queueM s).trans empty⟩
  start s r q h rest _ _ waiting := by
    rintro ⟨unreached, empty⟩
    refine ⟨unreached, (queue_startHead_ne s r p q queueM h rest ?_).trans empty⟩
    rintro ⟨rfl, rfl⟩
    rw [empty] at waiting
    cases waiting
  store s n h rest opened _ _ := by
    rintro ⟨unreached, empty⟩
    refine ⟨unreached, (queue_storeAdmitted p queueM).trans ((if_neg ?_).trans empty)⟩
    rintro ⟨rfl, -⟩
    rcases unreached with shut | other
    · rw [opened] at shut
      cases shut
    · exact other rfl
  present s r x := by
    rintro ⟨unreached, empty⟩
    exact ⟨unreached, (queue_present s p r x queueM).trans empty⟩
  flag s r f _ := by
    rintro ⟨unreached, empty⟩
    exact ⟨unreached, (queue_flag s p r _ _ queueM).trans empty⟩

/-- Every frame in queue M of the port is as long as a notice's (R179). -/
def State.managementShort (s : State) (p : Port) : Prop := ∀ h ∈ (s.queue p queueM).records, (s.record h).length = 64

/-- The records that a started head leaves in a queue were there before. -/
theorem mem_queue_startHead {s : State} {p r : Port} {q u : QueueName} {h k : Handle} {rest : List Handle}
    (waiting : (s.queue p q).records = h :: rest) (mem : k ∈ ((startHead p q h rest s).queue r u).records) :
    k ∈ (s.queue r u).records := by
  by_cases same : r = p ∧ u = q
  · obtain ⟨rfl, rfl⟩ := same
    rw [queue_startHead, if_pos rfl] at mem
    rw [waiting]
    exact List.mem_cons_of_mem h mem
  · rwa [queue_startHead_ne s p r q u h rest same] at mem

/-- The records of a queue after a store are those before it, and the new one. -/
theorem mem_queue_storeAdmitted {s : State} {p r : Port} {q u : QueueName} {bytes : List Byte} {h k : Handle} {rest : List Handle}
    (mem : k ∈ ((storeAdmitted p q bytes h rest s).queue r u).records) : k = h ∨ k ∈ (s.queue r u).records := by
  rw [queue_storeAdmitted] at mem
  split at mem
  · rename_i same
    rw [same.1, same.2]
    exact (List.mem_append.mp mem).symm.imp_left List.mem_singleton.mp
  · exact .inr mem

theorem managementShort_lossKeeps (p : Port) : LossKeeps (·.managementShort p) where
  hold s r h short k mem := by
    rw [queue_holdHead] at mem
    rw [record_holdHead]
    exact short k mem
  start _ _ _ _ _ _ _ waiting short k mem := short k (mem_queue_startHead waiting mem)
  store s n h rest _ _ _ short k mem := by
    rw [record_storeAdmitted]
    split
    · exact noticeFrame_length s n
    · rename_i other
      exact short k ((mem_queue_storeAdmitted mem).resolve_left other)
  present s r x short k mem := by
    rw [queue_present] at mem
    exact short k mem
  flag s r f _ short k mem := by
    rw [queue_flag] at mem
    exact short k mem

/-- The pool is sound, nothing but the cadence has changed since the given state, and the frames in queue M of the port are those of notices of
states since (R179). -/
def State.managementNotices (s e : State) (p : Port) : Prop :=
  s.poolWhole ∧ e.sameButCadence s
    ∧ ∀ h ∈ (s.queue p queueM).records, ∃ y n, e.sameButCadence y ∧ s.frameBytes h = noticeFrame y n

theorem frameBytes_holdHead (p : Port) (h k : Handle) (s : State) : (holdHead p h s).frameBytes k = s.frameBytes k := by
  rw [State.frameBytes, record_holdHead, holdHead_pool]
  rfl

theorem managementNotices_lossKeeps (e : State) (p : Port) : LossKeeps (·.managementNotices e p) where
  hold s r h := by
    rintro ⟨whole, since, notices⟩
    refine ⟨poolWhole_hold s r h whole, since.trans (holdHead_same r h s).toWalk.toCadence, fun k mem => ?_⟩
    rw [queue_holdHead] at mem
    rw [frameBytes_holdHead]
    exact notices k mem
  start s r q h rest idle _ waiting := by
    rintro ⟨whole, since, notices⟩
    exact ⟨poolWhole_start s r q h rest idle waiting whole, since.trans rfl, fun k mem => notices k (mem_queue_startHead waiting mem)⟩
  store s n h rest _ free room := by
    rintro ⟨whole, since, notices⟩
    refine ⟨poolWhole_store s _ _ _ h rest free room whole, since.trans rfl, fun k mem => ?_⟩
    rcases mem_queue_storeAdmitted mem with rfl | old
    · have ⟨_, cells, _⟩ := whole
      obtain ⟨distinct, -⟩ := List.nodup_append.mp (cells.nodup_iff.mpr (List.nodup_finRange 512))
      exact ⟨s, n, since, frameBytes_storeAdmitted distinct room⟩
    · rw [frameBytes_storeAdmitted_held whole _ _ _ free (mem_heldRecords_of_queue old)]
      exact notices k old
  agent s f := by
    rintro ⟨whole, since, notices⟩
    exact ⟨whole, since.trans rfl, notices⟩
  notices s n := by
    rintro ⟨whole, since, notices⟩
    exact ⟨whole, since.trans rfl, notices⟩
  present s r x := by
    rintro ⟨whole, since, notices⟩
    refine ⟨poolWhole_present s r x whole, since.trans rfl, fun k mem => ?_⟩
    rw [queue_present] at mem
    exact notices k mem
  flag s r f flying := by
    rintro ⟨whole, since, notices⟩
    refine ⟨poolWhole_flag s r f flying whole, since.trans rfl, fun k mem => ?_⟩
    rw [queue_flag] at mem
    exact notices k mem
  groups s x y := by
    rintro ⟨whole, since, notices⟩
    exact ⟨whole, since.trans rfl, notices⟩
  cadence s x y z b := by
    rintro ⟨whole, since, notices⟩
    exact ⟨whole, since.trans rfl, notices⟩

/-- A lock loss and a raised notice count no link discard. -/
theorem linkDiscards_lossKeeps (p : Port) (c : Count) : LossKeeps (fun t => (t.counters.ports.get p).linkDiscards = c) where
  hold s r h counted := by
    refine Eq.trans ?_ counted
    unfold holdHead
    split
    · rfl
    · cases p <;> cases r <;> rfl
  start _ _ _ _ _ _ _ _ counted := counted
  store _ _ _ _ _ _ _ counted := counted
  present _ _ _ counted := counted
  flag s r f _ counted := by
    refine Eq.trans ?_ counted
    cases p <;> cases r <;> rfl

/-! ### The port emptied (R89, R75, R126) -/

/-- The frame in flight, if there is one, is counted as a link discard (R75). -/
def discardCounted (p : Port) (s : State) : State :=
  if (s.sched p).inFlight.isSome then s.countPort p (fun c => { c with linkDiscards := Count.up c.linkDiscards }) else s

theorem discardInFlight_eq (p : Port) (s : State) : discardInFlight p s = abortTransmission p (discardCounted p s) := by
  unfold discardInFlight discardCounted
  split
  · rfl
  · rename_i idle
    have none : (s.sched p).inFlight = Option.none := by simpa using idle
    simp only [abortTransmission, none]

/-- The transmitter aborted and every queue flushed. -/
def portEmptied (p : Port) (s : State) : State := flushPort p (discardInFlight p s)

section
variable (p : Port) (s : State)

theorem portEmptied_same : s.sameButTraffic (portEmptied p s) := (discardInFlight_same p s).trans (flushPort_same p _)

theorem discardCounted_stands : (discardCounted p s).egress = s.egress ∧ (discardCounted p s).pool = s.pool
    ∧ (discardCounted p s).counters = { s.counters with ports := (discardCounted p s).counters.ports }
    ∧ (discardCounted p s).counters.ports.get p.opposite = s.counters.ports.get p.opposite := by
  unfold discardCounted
  split
  · exact ⟨rfl, rfl, rfl, by cases p <;> rfl⟩
  · exact ⟨rfl, rfl, rfl, rfl⟩

/-- The record in flight is freed, then those of the queues (R75, R126). -/
theorem portEmptied_frees :
    (discardCounted p s).freesAt (portEmptied p s) p (s.inFlightRecord p ++ s.flushOrder p) := by
  obtain ⟨egress, -⟩ := discardCounted_stands p s
  obtain ⟨aborted, -⟩ := abortTransmission_frees p (discardCounted p s)
  obtain ⟨flushed, -⟩ := flushPort_frees p (discardInFlight p s)
  have flies : (discardCounted p s).inFlightRecord p = s.inFlightRecord p := by
    rw [State.inFlightRecord, State.sched, egress, State.inFlightRecord, State.sched]
  have order : (discardInFlight p s).flushOrder p = s.flushOrder p := by
    simp only [State.flushOrder, State.queue, State.sched, discardInFlight_egress, Pair.get_set]
    rfl
  rw [order] at flushed
  rw [flies, ← discardInFlight_eq] at aborted
  exact aborted.trans flushed

/-- The transmitter is idle and the queues are empty; the scheduler keeps what it presents. -/
theorem portEmptied_sched :
    (portEmptied p s).sched p = { s.sched p with inFlight := none, queues := ((portEmptied p s).sched p).queues }
      ∧ (∀ q, (portEmptied p s).queue p q = Queue.empty) ∧ (portEmptied p s).sched p.opposite = s.sched p.opposite := by
  obtain ⟨egress, -⟩ := discardCounted_stands p s
  obtain ⟨-, empty, idle⟩ := flushPort_frees p (discardInFlight p s)
  have frees := portEmptied_frees p s
  have stands (r : Port) : (discardCounted p s).sched r = s.sched r := by rw [State.sched, egress, State.sched]
  refine ⟨Egress.emptied ?_ ?_, empty, frees.others.trans (stands p.opposite)⟩
  · rw [frees.presentation, stands]
  · refine idle.trans ?_
    rw [State.sched, discardInFlight_egress, Pair.get_set, if_pos rfl]

theorem portEmptied_counters : (portEmptied p s).counters
    = { s.counters with ports := (portEmptied p s).counters.ports, queues := (portEmptied p s).counters.queues } := by
  obtain ⟨-, -, ports, -⟩ := discardCounted_stands p s
  rw [(portEmptied_frees p s).counters, ports]

theorem portEmptied_otherCounters : (portEmptied p s).counters.ports.get p.opposite = s.counters.ports.get p.opposite
    ∧ (portEmptied p s).counters.queues.get p.opposite = s.counters.queues.get p.opposite := by
  obtain ⟨-, -, ports, other⟩ := discardCounted_stands p s
  have frees := portEmptied_frees p s
  refine ⟨?_, frees.groups.trans (by rw [ports])⟩
  rw [frees.counters]
  exact other

theorem portEmptied_linkDiscards : ((portEmptied p s).counters.ports.get p).linkDiscards
    = if (s.sched p).inFlight.isSome then Count.up (s.counters.ports.get p).linkDiscards
      else (s.counters.ports.get p).linkDiscards := by
  rw [(portEmptied_frees p s).counters]
  unfold discardCounted
  split
  · cases p <;> rfl
  · rfl

theorem portEmptied_flushedAt (q : QueueName) :
    (portEmptied p s).flushedAt p q = Count.upBy (s.queue p q).records.length (s.flushedAt p q) := by
  obtain ⟨-, -, ports, -⟩ := discardCounted_stands p s
  have queue : (discardInFlight p s).queue p q = s.queue p q := by
    simp only [State.queue, State.sched, discardInFlight_egress, Pair.get_set]
    rfl
  have counts : (discardInFlight p s).flushedAt p q = s.flushedAt p q := by
    refine flushedAt_congr ?_ p q
    rw [discardInFlight_eq, abortTransmission_counters, ports]
  rw [portEmptied, flushedAt_flushPort, if_pos rfl, queue, counts]

variable {s}

theorem State.poolWhole.freedAt_nodup (whole : s.poolWhole) : (s.inFlightRecord p ++ s.flushOrder p).Nodup := by
  refine whole.freed_nodup.sublist ?_
  cases p
  · exact ((List.sublist_append_left _ _).append (.refl _)).trans (List.sublist_append_left _ _)
  · exact ((List.sublist_append_right _ _).trans (List.sublist_append_left _ _)).append (.refl _)

theorem portEmptied_poolWhole (whole : s.poolWhole) : (portEmptied p s).poolWhole := by
  refine poolWhole_moves.toFlushKeeps.flushPort p _ ?_
  unfold discardInFlight
  split
  · exact poolWhole_abortTransmission _ p whole
  · exact whole

end

/-! ### The event -/

/-- The port after its receiver is emptied and its link state has fallen (R89). -/
def State.linkFallen (s : State) (p : Port) : State := (s.setPhy p .down).setPort p ⟨.down, Receiver.idle⟩

/-- What the tracker makes of an emptied port (R17). -/
def linkLost (p : Port) (x : State) : State := if p = x.config.cadencePort then trackerDisturbed .linkDown x else x

/-- A link down event empties the port, reaches the tracker, and raises LINK_CHANGE (R89). -/
theorem exec_linkDown_up {p : Port} {s : State} (released : s.inReset = false) (up : (s.port p).link = .up) :
    exec (.linkDown p) s = .next (raiseNotice (.linkChange p .down)
      (linkLost p (portEmptied p (s.linkFallen p))).sequencer.cycle (linkLost p (portEmptied p (s.linkFallen p)))) := by
  have fallen : releaseReceiver p ((s.setPhy p .down).setLink p .down) = s.linkFallen p := by
    unfold State.linkFallen State.setPhy
    cases p <;> rfl
  have event : linkDownEvent p (s.setPhy p .down) = raiseNotice (.linkChange p .down)
      (linkLost p (portEmptied p (s.linkFallen p))).sequencer.cycle (linkLost p (portEmptied p (s.linkFallen p))) := by
    unfold linkDownEvent linkLost portEmptied
    rw [fallen]
  have other : ¬ ((s.setPhy p .down).port p).link = .down := by
    rw [show (s.setPhy p .down).port p = s.port p from rfl, up]
    decide
  rw [← event]
  exact congrArg Host.Outcome.next ((outsideReset_released (s := s.setPhy p .down) released _).trans (if_neg other))

theorem exec_linkDown_down {p : Port} {s : State} (released : s.inReset = false) (down : (s.port p).link = .down) :
    exec (.linkDown p) s = .next (s.setPhy p .down) :=
  congrArg Host.Outcome.next ((outsideReset_released (s := s.setPhy p .down) released _).trans (if_pos down))

/-- On a port that is DOWN an accepted frame is only stored, and reaches no other port. -/
theorem acceptFrame_otherPort {p r : Port} (other : r ≠ p) {q : QueueName} {bytes : List Byte} {s : State}
    (down : (s.port p).link = .down) : (acceptFrame p q bytes s).sched r = s.sched r := by
  have stored (h : Handle) (rest : List Handle) : (storeAdmitted p q bytes h rest s).sched r = s.sched r :=
    (State.sched_setQueue _ p r q _).trans (if_neg other)
  unfold acceptFrame
  split
  · rfl
  · simp only
    split
    · rename_i h rest _ _
      rw [evaluate_not_made (s := storeAdmitted p q bytes h rest s) (.inr down)]
      exact stored h rest
    · exact stored _ _

/-- While the owner's port is DOWN, notices offered there reach no other port. -/
theorem offerNotices_otherPort {p r : Port} (other : r ≠ p) : ∀ (fuel : Nat) (s : State), s.agent.session.ownerPort = p →
    (s.port p).link = .down → (offerNotices fuel s).sched r = s.sched r
  | 0, _, _, _ => rfl
  | fuel + 1, s, owner, down => by
    unfold offerNotices
    split
    · rfl
    · rename_i n rest waiting
      simp only
      split
      · rfl
      · have same := acceptFrame_same s.agent.session.ownerPort queueM (noticeFrame s n) s
        obtain ⟨-, -, -, -, -, -, -, -, agent, -⟩ := same.fields
        refine (offerNotices_otherPort other fuel _ ?_ ?_).trans ?_
        · exact (congrArg (fun a => a.session.ownerPort) agent).trans owner
        · exact (congrArg LinePort.link (same.port p)).trans down
        · rw [owner]
          exact acceptFrame_otherPort other down

theorem raiseNotice_otherPort {p r : Port} (other : r ≠ p) (d : NoticeDetail) (c : Count) {s : State}
    (owner : s.agent.session.isOpen = false ∨ s.agent.session.ownerPort = p) (down : (s.port p).link = .down) :
    (raiseNotice d c s).sched r = s.sched r := by
  rcases owner with shut | owner
  · rw [raiseNotice_closed d c s shut]
  · unfold raiseNotice
    split
    · rfl
    · split
      · rfl
      · split
        · rfl
        · exact offerNotices_otherPort other _ _ owner down

section
variable {p : Port} {s : State}

/-- The part as the link falls, emptied at the port. -/
def State.linkEmptied (s : State) (p : Port) : State := portEmptied p (s.linkFallen p)

theorem linkEmptied_same (s : State) (p : Port) : (s.linkFallen p).sameButTraffic (s.linkEmptied p) := portEmptied_same p _

theorem linkEmptied_fields (s : State) (p : Port) : (s.linkEmptied p).config = s.config ∧ (s.linkEmptied p).tracker = s.tracker
    ∧ (s.linkEmptied p).counters.tracker = s.counters.tracker ∧ (s.linkEmptied p).counters.sequencer = s.counters.sequencer := by
  obtain ⟨-, -, -, -, -, tracker, -, -, -, config, -⟩ := (linkEmptied_same s p).fields
  have counters : (s.linkEmptied p).counters = _ := portEmptied_counters p (s.linkFallen p)
  exact ⟨config, tracker, by rw [counters]; rfl, by rw [counters]; rfl⟩

theorem linkEmptied_downAndIdle (s : State) (p : Port) : (s.linkEmptied p).downAndIdle p := by
  obtain ⟨sched, -⟩ := portEmptied_sched p (s.linkFallen p)
  refine ⟨?_, congrArg Egress.inFlight sched⟩
  rw [(linkEmptied_same s p).port, State.linkFallen, State.port_setPort, if_pos rfl]

theorem linkLost_idle (h : p ≠ s.config.cadencePort ∨ s.tracker.state = .off ∨ s.tracker.state = .seeking) :
    linkLost p (s.linkEmptied p) = s.linkEmptied p := by
  obtain ⟨config, tracker, -⟩ := linkEmptied_fields s p
  by_cases port : p = s.config.cadencePort
  · have idle := h.resolve_left (not_not.mpr port)
    refine (if_pos (config.symm ▸ port)).trans (trackerDisturbed_idle _ ?_)
    rwa [tracker]
  · exact if_neg (config.symm ▸ port)

theorem linkLost_acquiring (port : p = s.config.cadencePort) (h : s.tracker.state = .acquiring) :
    linkLost p (s.linkEmptied p) = (s.linkEmptied p).setTracker (s.tracker.cleared .seeking) := by
  obtain ⟨config, tracker, -⟩ := linkEmptied_fields s p
  refine (if_pos (config.symm ▸ port)).trans ((trackerDisturbed_acquiring _ ?_).trans ?_)
  · rwa [tracker]
  · rw [tracker]
    rfl

theorem linkLost_locked (port : p = s.config.cadencePort) (h : s.tracker.state.isLocked = true) :
    linkLost p (s.linkEmptied p) = lockLoss .linkDown (s.linkEmptied p) := by
  obtain ⟨config, tracker, -⟩ := linkEmptied_fields s p
  refine (if_pos (config.symm ▸ port)).trans (trackerDisturbed_locked _ ?_)
  rwa [tracker]

/-- Short of a lock loss the tracker alone has changed (R17). -/
theorem linkLost_unlocked (h : p ≠ s.config.cadencePort ∨ s.tracker.state.isLocked = false) :
    ∃ tr, linkLost p (s.linkEmptied p) = (s.linkEmptied p).setTracker tr := by
  by_cases port : p = s.config.cadencePort
  · have unlocked := h.resolve_left (not_not.mpr port)
    cases st : s.tracker.state with
    | off => exact ⟨_, (linkLost_idle (.inr (.inl st))).trans (State.setTracker_self _).symm⟩
    | seeking => exact ⟨_, (linkLost_idle (.inr (.inr st))).trans (State.setTracker_self _).symm⟩
    | acquiring => exact ⟨_, linkLost_acquiring port st⟩
    | locked | holdover =>
      rw [st] at unlocked
      cases unlocked
  · exact ⟨_, (linkLost_idle (.inl port)).trans (State.setTracker_self _).symm⟩

theorem linkLost_cadence (p : Port) (x : State) : x.sameButCadence (linkLost p x) := by
  unfold linkLost
  split
  · exact trackerDisturbed_cadence _ x
  · exact .refl x

/-- The part after a link down event (R89). -/
def State.linkDowned (s : State) (p : Port) : State := raiseNotice (.linkChange p .down)
  (linkLost p (s.linkEmptied p)).sequencer.cycle (linkLost p (s.linkEmptied p))

/-- What the moves of a lock loss keep, and the emptied port has, is left at the end. -/
theorem LossKeeps.linkDowned {P : State → Prop} (k : LossKeeps P) (h : P (s.linkEmptied p)) : P (s.linkDowned p) := by
  refine k.raiseNotice _ _ _ ?_
  unfold linkLost
  split
  · exact k.trackerDisturbed _ _ h
  · exact h

/-- The notice of the link change leaves what the tracker made of the port, but for traffic (R19). -/
theorem linkDowned_fields (s : State) (p : Port) :
    (s.linkDowned p).pins = (linkLost p (s.linkEmptied p)).pins ∧ (s.linkDowned p).tracker = (linkLost p (s.linkEmptied p)).tracker
      ∧ (s.linkDowned p).sequencer = (linkLost p (s.linkEmptied p)).sequencer
      ∧ (s.linkDowned p).programs = (linkLost p (s.linkEmptied p)).programs
      ∧ (s.linkDowned p).counters.tracker = (linkLost p (s.linkEmptied p)).counters.tracker
      ∧ (s.linkDowned p).counters.sequencer = (linkLost p (s.linkEmptied p)).counters.sequencer := by
  obtain ⟨-, pins, -, -, -, tracker, sequencer, programs, -⟩ := (raiseNotice_same (.linkChange p .down)
    (linkLost p (s.linkEmptied p)).sequencer.cycle (linkLost p (s.linkEmptied p))).fields
  obtain ⟨trackerCounts, sequencerCounts⟩ := raiseNotice_groups (.linkChange p .down)
    (linkLost p (s.linkEmptied p)).sequencer.cycle (linkLost p (s.linkEmptied p))
  exact ⟨pins, tracker, sequencer, programs, trackerCounts, sequencerCounts⟩

theorem linkDowned_cadence (s : State) (p : Port) : (s.linkFallen p).sameButCadence (s.linkDowned p) :=
  ((linkEmptied_same s p).toWalk.toCadence.trans (linkLost_cadence p _)).trans (raiseNotice_same _ _ _).toWalk.toCadence

end

theorem lossSequencer_cycle (s : State) : s.lossSequencer.cycle = s.lossCycle := by
  unfold State.lossSequencer State.lossCycle
  split <;> rfl

/-- Settles O10: the port emptied, the tracker by its state, and what a lock loss and the notice bring to the port. -/
theorem linkDownTaken : Obligations.LinkDownTaken := by
  intro p s released
  refine ⟨?_, exec_linkDown_down released⟩
  rintro up emptied rfl
  have same := linkEmptied_same s p
  obtain ⟨-, pins, -, -, -, tracker, sequencer, programs, agent, config, notices, -⟩ := same.fields
  obtain ⟨-, -, trackerCounts, sequencerCounts⟩ := linkEmptied_fields s p
  have frees : (discardCounted p (s.linkFallen p)).freesAt (s.linkEmptied p) p _ := portEmptied_frees p (s.linkFallen p)
  obtain ⟨-, pool, -⟩ := discardCounted_stands p (s.linkFallen p)
  obtain ⟨sched, empty, other⟩ := portEmptied_sched p (s.linkFallen p)
  obtain ⟨otherPorts, otherQueues⟩ := portEmptied_otherCounters p (s.linkFallen p)
  obtain ⟨down, -⟩ := linkEmptied_downAndIdle s p
  have ending := linkDowned_fields s p
  refine ⟨s.linkEmptied p, linkLost p (s.linkEmptied p), s.linkDowned p, exec_linkDown_up released up, same, sched, empty, other,
    ?records, fun whole => ?cells, ?memory, portEmptied_counters p _, otherPorts, otherQueues, linkLost_idle, linkLost_acquiring,
    linkLost_locked, rfl, linkDowned_cadence s p, ((downAndIdle_lossKeeps p).linkDowned (linkEmptied_downAndIdle s p)).2,
    (classQueuesEmpty_lossKeeps p).linkDowned fun q _ => empty q, fun unreached => ?unreached, ?short, fun whole => ?frames,
    fun unlocked unreached => ?opposite, ?discards, ?flushed, fun unlocked => ?unlocked, fun idle => ?idle, fun port moved => ?moved,
    fun port locked => ?locked⟩
  case records =>
    rw [frees.records, pool, ← List.append_assoc]
    rfl
  case cells =>
    rw [frees.cells (State.poolWhole.freedAt_nodup p (s := s.linkFallen p) whole), pool]
    simp only [State.record, pool]
    rfl
  case memory =>
    rw [frees.memory, pool]
    rfl
  case unreached =>
    have reach : (s.linkEmptied p).managementUnreached p := ⟨by rw [agent]; exact unreached, empty queueM⟩
    exact ((managementUnreached_lossKeeps p).linkDowned reach).2
  case short =>
    refine (managementShort_lossKeeps p).linkDowned fun h mem => ?_
    rw [show (s.linkEmptied p).queue p queueM = Queue.empty from empty queueM] at mem
    cases mem
  case frames =>
    obtain ⟨-, -, stored⟩ := (managementNotices_lossKeeps (s.linkFallen p) p).linkDowned (s := s) (p := p)
      ⟨portEmptied_poolWhole p (s := s.linkFallen p) whole, same.toWalk.toCadence, fun h mem => by
        rw [show (s.linkEmptied p).queue p queueM = Queue.empty from empty queueM] at mem
        cases mem⟩
    exact stored
  case opposite =>
    obtain ⟨tr, is⟩ := linkLost_unlocked unlocked
    rw [State.linkDowned, is, raiseNotice_otherPort (opposite_ne p) _ _ ?_ ?_, State.sched_setTracker]
    · exact other
    · simp only [State.setTracker_fields, agent]
      exact unreached
    · exact down
  case discards =>
    exact (linkDiscards_lossKeeps p _).linkDowned (portEmptied_linkDiscards p (s.linkFallen p))
  case flushed =>
    exact (flushedAt_lossKeeps p _).linkDowned (portEmptied_flushedAt p (s.linkFallen p))
  case unlocked =>
    obtain ⟨tr, is⟩ := linkLost_unlocked unlocked
    rw [is] at ending
    simp only [State.setTracker_fields] at ending
    obtain ⟨pins', -, sequencer', programs', trackerCounts', sequencerCounts'⟩ := ending
    refine ⟨sequencer'.trans sequencer, programs'.trans programs, (congrArg Pins.lock (pins'.trans pins)).trans rfl,
      trackerCounts'.trans trackerCounts, sequencerCounts'.trans sequencerCounts, (s.linkEmptied p).setTracker tr,
      same.toWalk.toCadence.trans rfl, notices, ?_⟩
    rw [State.linkDowned, is]
    simp only [State.setTracker_fields, sequencer]
    rfl
  case idle =>
    obtain ⟨-, tracker', -⟩ := ending
    rw [tracker', linkLost_idle idle, tracker]
    rfl
  case moved =>
    obtain ⟨-, tracker', -⟩ := ending
    rcases moved with acquiring | locked
    · rw [tracker', linkLost_acquiring port acquiring, State.setTracker]
    · obtain ⟨cleared, -⟩ := lockLoss_afterTraffic .linkDown same ⟨trackerCounts, sequencerCounts⟩
      rw [tracker', linkLost_locked port locked, cleared]
      rfl
  case locked =>
    obtain ⟨-, low, losses, cancels, walk, store, raised⟩ :=
      lockLoss_afterTraffic .linkDown same ⟨trackerCounts, sequencerCounts⟩
    rw [linkLost_locked port locked] at ending
    obtain ⟨pins', -, sequencer', programs', trackerCounts', sequencerCounts'⟩ := ending
    have cycle : (lockLoss .linkDown (s.linkEmptied p)).sequencer.cycle = s.lossCycle := by
      rw [walk]
      exact lossSequencer_cycle (s.linkFallen p)
    have last := raises_raiseNotice (.linkChange p .down) s.lossCycle (lockLoss .linkDown (s.linkEmptied p))
    refine ⟨congrArg Pins.lock (pins'.trans low), trackerCounts'.trans losses, sequencerCounts'.trans cancels, sequencer'.trans walk,
      programs'.trans store, ?_⟩
    rw [State.linkDowned, linkLost_locked port locked, cycle]
    exact raised.append (same.toWalk.toCadence.trans (lockLoss_cadence _ _)) last

end Sys2Proof.Machine
end
